-- ==== Sys2Proof/Word.lean ====
section
/-! DEFINITION. The words of the block: the 16-bit command header (R81), the byte of the transition
table (R51, R75), the 2-bit input code (R70), the automaton's 3-bit register (R27), the signed
integers of the range policy (R8, R13) and the opaque listener handle (R10). -/

namespace Sys2Proof

/-- The command header presented with every operation (R81). -/
abbrev Header := BitVec 16

/-- One entry of the transition table (R51, R75). -/
abbrev TableByte := BitVec 8

/-- The input code `(clk << 1) | dt` (R70). -/
abbrev Code := BitVec 2

/-- The automaton's register: 3 bits, all eight numerals representable (R27, R71). -/
abbrev FsmState := BitVec 3

/-- The numeral of a range mode as a header field or a construction parameter carries it (R76). -/
abbrev ModeBits := BitVec 2

/-- A listener handle. The block stores it, compares it with nothing and presents it on the notify
channel (R10); the spec leaves the type open. DESIGN CHOICE, safe (log entry 3): a natural number,
so that there are as many handles as a table of any size needs. -/
abbrev ListenerId := Nat

end Sys2Proof
end

