-- ==== Sys2Proof/Config.lean ====
section
/-! DEFINITION. What an implementation fixes: the open parameters `W` and `NL` (R8, R9; the table
'Open parameters' of 92_eei_decisions.md) and the four construction parameters (R11). Parameters are
arguments of the model, so they are plain data: a state carries its instance's `Config`, and the
construction of an instance takes a `Config` and an `InitParams`. No free value of the spec needs an
opaque constant here: every open draw of the spec is an input (commands, answers) held in lists. -/

namespace Sys2Proof

/-- The implementation parameters of one instance. -/
structure Config where
  /-- `W` (R8): `none` is the unbounded width, the spec's default. -/
  width : Option Nat
  /-- `NL` (R9): the capacity of the listener table; `none` is unbounded, the spec's default. -/
  nl : Option Nat
  deriving DecidableEq, Repr

/-- The construction-time configuration (R11). `modeInit` is the numeral, so that an illegal mode can
be written down and refused (R187). -/
structure InitParams where
  minInit : Int
  maxInit : Int
  revInit : Bool
  modeInit : ModeBits
  deriving DecidableEq, Repr

/-- Both implementation parameters at the spec's defaults: unbounded `W`, unbounded `NL` (R8, R9). -/
def Config.unbounded : Config := { width := none, nl := none }

/-- The construction parameters of `State.reset`. The spec gives none a default (R11). DESIGN CHOICE,
unsafe (log entry 1): the one configuration the spec's source itself writes down, its scenario S9 of
95_test_vectors.md: bounds 0 and 5, `reverse = false`, WRAP. -/
def InitParams.scenario : InitParams :=
  { minInit := 0, maxInit := 5, revInit := false, modeInit := 2#2 }

end Sys2Proof
end

