-- ==== Sys2Proof/Syntax.lean ====
section
/-! DEFINITION. The five operations of the command channel, one constructor per row of
spec/opcode_table.json (R83). A constructor holds what its HEADER carries (R91); the operand buses
`op_value`, `op_min`, `op_max` and `op_handle` (R82) are presented beside the header and are read from
the state. NOTIFY has no row and no constructor: it runs only inside EDGE (R83, R165). -/

namespace Sys2Proof

/-- One operation as its header names it. Every term is the reading of exactly one legal header: the
fields have the header's own widths. -/
inductive Instr where
  /-- EDGE, `process_edge(clk, dt)`: the two line levels (R100). -/
  | edge (clk dt : Bool)
  /-- RDVAL, `current_value()` (R148). -/
  | rdval
  /-- RECONF, `reconfigure(fields...)`: the five field-enable bits, the `rev` operand `r` and the
  range-mode operand `mode` (R81, R84, R140). `r` and `mode` may hold anything when they are not
  named. -/
  | reconf (fMode fRev fMax fMin fValue r : Bool) (mode : ModeBits)
  /-- RSTVAL, `reset()` (R150). -/
  | rstval
  /-- ADDL, `add_listener(callback)` (R160). -/
  | addl
  deriving DecidableEq, Repr

end Sys2Proof
end

