-- ==== Sys2Proof/Machine/State.lean ====
section
/-! DEFINITION. The machine's state as plain data: the block's registers (R20 to R28, R31), the
instance's parameters (R8, R9), and the channels of R80 with what stands on them (commands presented
and not yet accepted, the operand buses, the listeners' answers, the responses and the ended
invocations). Also the reasons a step can stop, and the state after reset. -/

namespace Sys2Proof.Machine

/-- The three range modes (R26). The register never holds the numeral 0, so the type has no fourth
value (R126, U3 of 93_implementation_defined.md; log entry 11); the numerals are in
`RangeMode.numeral`. -/
inductive RangeMode where
  | unbounded
  | wrap
  | bounded
  deriving DecidableEq, Repr

/-- The status of a response (R87). -/
inductive Status where
  | ok
  | illegalCommand
  | invalidConfiguration
  | listenerFault
  | listenerTableFull
  deriving DecidableEq, Repr

/-- The four faults of the block (R180). Each ENDS ITS OPERATION WITH A RESPONSE and the machine goes
on (R192, R193), so none of them is an outcome `fault` of a step. -/
inductive BlockFault where
  /-- The header matches no row (R184). -/
  | illegalCommand
  /-- RECONF names numeral 0, or its bounds would be inverted (R181). -/
  | invalidConfiguration
  /-- The listener at index `k` answered `fault` (R182). -/
  | listenerFault (k : Nat)
  /-- ADDL at `lcount = NL` (R183). -/
  | listenerTableFull
  deriving DecidableEq, Repr

/-- A listener's answer to one invocation (R89, R166). -/
inductive Answer where
  | done
  | fault
  deriving DecidableEq, Repr

/-- The operand buses presented with a header (R82). -/
structure Operands where
  opValue : Int
  opMin : Int
  opMax : Int
  opHandle : ListenerId
  deriving DecidableEq, Repr

/-- One transfer of the command channel: a header with its buses (R80, R90). -/
structure Command where
  hdr : Header
  ops : Operands
  deriving DecidableEq, Repr

/-- One transfer of the response channel (R88). -/
structure Response where
  status : Status
  changed : Bool
  value : Int
  info : Nat
  deriving DecidableEq, Repr

/-- One ended invocation of the notify channel: the handle presented and the answer given (R89). -/
structure Invocation where
  handle : ListenerId
  answer : Answer
  deriving DecidableEq, Repr

/-- The whole state of one instance and of its channels. `lcount` (R28) is the length of `lt`, stored
once: see `State.lcount` (log entry 10). The transition table is a constant and no state (R32, R53). -/
structure State where
  /-- `value` (R21). -/
  value : Int
  /-- `min_val` (R22). -/
  minVal : Int
  /-- `max_val` (R23). -/
  maxVal : Int
  /-- `rev` (R25): `true` is 1, `direction_sign = -1`. -/
  rev : Bool
  /-- `range_mode` (R26). -/
  rangeMode : RangeMode
  /-- `fsm_state` (R27). -/
  fsmState : FsmState
  /-- `LT[0 .. lcount-1]` in insertion order (R28). -/
  lt : List ListenerId
  /-- `busy` (R31): an EDGE has committed and its dispatch has not ended. -/
  busy : Bool
  /-- `disp_idx` (R31): the index of the listener being invoked. -/
  dispIdx : Nat
  /-- The instance's parameters `W` and `NL` (R8, R9); no step changes them. -/
  cfg : Config
  /-- Command channel: the operations the collaborator presents and the block has not accepted yet, in
  the order it presents them (R80, R221; log entry 4). -/
  cmdIn : List Command
  /-- The operand buses as the last accepted operation found them (R82). -/
  bus : Operands
  /-- The answers the listeners will give, one per invocation, in order (R32 (d), R166): an input of
  the environment, under no law (log entry 4). An empty list is a listener that has not answered. -/
  answers : List Answer
  /-- Response channel: the responses given so far, oldest first (R80, R88). No rule reads it. -/
  respOut : List Response
  /-- Notify channel: the invocations ended so far, oldest first (R80, R89). No rule reads it. -/
  notifyOut : List Invocation
  deriving DecidableEq, Repr

/-- Reasons for the outcome `fault`. There is none: each of the spec's four faults (R180) is a response
with a status after which the machine goes on (R192, R193), and a listener that never answers leaves
the block waiting, which is no final state (U5). Safe: no behaviour of the block is cut off by one. -/
inductive Fault where
  deriving DecidableEq, Repr

/-- Reasons for the outcome `refused`. -/
inductive Refusal where
  /-- Raised by an arm of `exec` for an instruction without a meaning. Safe. No arm of this model
  raises it. -/
  | notModelled (mnemonic : String)
  /-- Raised by EDGE on an instance of finite `W` when the step's result does not fit `W` bits: 'an
  operation whose stored result would fall outside the range has no meaning in this spec' (R8, R133,
  U1: 'Treat as: refuse'; log entry 7). Never raised with the default, unbounded `W`. Safe. -/
  | resultOutsideWidth
  /-- Raised by EDGE in WRAP or BOUNDED mode when `min_val > max_val`, for which the spec gives the
  formulas no meaning (R126, N22 of 91_not_in_source.md; log entry 8). No state reached from a constructed instance
  has such bounds (R24). Safe. -/
  | boundsInverted
  deriving DecidableEq, Repr

/-- The state after reset (R34) of the instance with unbounded `W` and `NL` and the construction
parameters `InitParams.scenario` (DESIGN CHOICE, unsafe, log entry 1: the spec gives the four
parameters no value). `disp_idx` is unspecified at reset and never read while `busy = 0`: 0 here (DESIGN
CHOICE, log entry 2), as are the operand buses, which no operation has presented yet (log entry 2).
Nothing stands on the channels. `Sys2Proof.Machine.construct` gives the state after reset for every
other choice of the parameters. -/
def State.reset : State :=
  { value := 0, minVal := 0, maxVal := 5, rev := false, rangeMode := .wrap, fsmState := 0#3,
    lt := [], busy := false, dispIdx := 0, cfg := Config.unbounded,
    cmdIn := [], bus := { opValue := 0, opMin := 0, opMax := 0, opHandle := 0 },
    answers := [], respOut := [], notifyOut := [] }

end Sys2Proof.Machine
end

