-- ==== Sys2Proof/Machine/Operands.lean ====
section
/-! DEFINITION. The operand forms: the numerals of states, modes and statuses (R71, R76, R87), the
input code (R70), the signed reading of an operand bus (R82), the named and unnamed fields of RECONF
(R84), and the width test of a finite `W` (R8). -/

namespace Sys2Proof.Machine

/-! ### State numerals (R71) -/

def stSTART : FsmState := 0#3
def stCW1 : FsmState := 1#3
def stCW2 : FsmState := 2#3
def stCW3 : FsmState := 3#3
def stCCW1 : FsmState := 4#3
def stCCW2 : FsmState := 5#3
def stCCW3 : FsmState := 6#3
def stILLEGAL : FsmState := 7#3

/-! ### Range-mode numerals (R76) and status codes (R87) -/

def RangeMode.numeral : RangeMode → ModeBits
  | .unbounded => 1#2
  | .wrap => 2#2
  | .bounded => 3#2

/-- The mode a numeral names; 0 names none (R76). -/
def RangeMode.ofNumeral (m : ModeBits) : Option RangeMode :=
  if m = 1#2 then some .unbounded
  else if m = 2#2 then some .wrap
  else if m = 3#2 then some .bounded
  else none

/-- The 3-bit code of a status (R87); 5, 6 and 7 are no status (U14). -/
def Status.code : Status → BitVec 3
  | .ok => 0#3
  | .illegalCommand => 1#3
  | .invalidConfiguration => 2#3
  | .listenerFault => 3#3
  | .listenerTableFull => 4#3

/-! ### The code of an EDGE (R70, R101) -/

/-- `code = (clk << 1) | dt`. -/
def codeOf (clk dt : Bool) : Code :=
  ((BitVec.ofBool clk).setWidth 2 <<< 1) ||| (BitVec.ofBool dt).setWidth 2

/-! ### Operand buses and fields -/

/-- Whether an integer lies in the range of a signed `W`-bit word (R8); every integer does when `W` is
unbounded. -/
def fitsWidth : Option Nat → Int → Bool
  | none, _ => true
  | some w, x => decide (-(2 ^ (w - 1) : Int) ≤ x) && decide (x < (2 ^ (w - 1) : Int))

/-- The number an operand bus carries: with a finite `W` the bus has `W` bits and is taken as signed
(R82), so it is the signed reading of the low `W` bits of what is presented; a presented number that
fits is read as itself. DEDUCED, safe (log entry 6). -/
def busSigned : Option Nat → Int → Int
  | none, x => x
  | some w, x => Int.bmod x (2 ^ w)

/-- `op_value` as RECONF reads it. -/
def State.busValue (s : State) : Int := busSigned s.cfg.width s.bus.opValue
/-- `op_min` as RECONF reads it. -/
def State.busMin (s : State) : Int := busSigned s.cfg.width s.bus.opMin
/-- `op_max` as RECONF reads it. -/
def State.busMax (s : State) : Int := busSigned s.cfg.width s.bus.opMax

/-- A RECONF field: the operand where it is named, the prior value where it is not (R84, R141). -/
def field {α : Type} (named : Bool) (operand prior : α) : α := if named then operand else prior

/-- The range-mode field of a RECONF: `none` when it is named with the numeral 0; `mode` is not
examined when it is not named (R142 (1)). -/
def modeField (named : Bool) (mode : ModeBits) (prior : RangeMode) : Option RangeMode :=
  if named then RangeMode.ofNumeral mode else some prior

end Sys2Proof.Machine
end

