-- ==== Sys2Proof/WellFormed.lean ====
section
/-! DEFINITION. What must hold of the data from outside for the rules to apply: legal parameters of an
instance (R8, R11, R187) and commands whose buses fit `W` (R82). An `Instr` has the header's own field
widths, so every term of it is well-formed: what RECONF rejects is rejected by the operation, not by its
form (R86). -/

namespace Sys2Proof

open Sys2Proof.Machine

/-- Every term is the reading of one legal header (R85, R86): there is nothing to refuse. -/
def Instr.WellFormed : Instr → Bool
  | .edge _ _ => true
  | .rdval => true
  | .reconf _ _ _ _ _ _ _ => true
  | .rstval => true
  | .addl => true

/-- `W` is a natural number >= 1, or unbounded (table 'Open parameters' of 92_eei_decisions.md). -/
def Config.legal (c : Config) : Bool := decide (c.width ≠ some 0)

/-- A legal instance has `MIN_INIT <= MAX_INIT`, both within `W`, and `MODE_INIT` in {1, 2, 3} (R11,
R187). -/
def InitParams.legal (c : Config) (p : InitParams) : Bool :=
  decide (p.minInit ≤ p.maxInit) && fitsWidth c.width p.minInit && fitsWidth c.width p.maxInit
    && decide (p.modeInit ≠ 0#2)

/-- A command whose three number buses carry `W`-bit numbers (R82). -/
def Machine.Command.WellFormed (c : Config) (x : Command) : Bool :=
  fitsWidth c.width x.ops.opValue && fitsWidth c.width x.ops.opMin && fitsWidth c.width x.ops.opMax

end Sys2Proof
end

