-- ==== Sys2Proof/Decode.lean ====
section
/-! DEFINITION. The header decoder (R81, R83, R85, R91), total on the 65536 headers and refusing by name,
and after it the encoder, written from the header patterns of R83. -/

namespace Sys2Proof

/-- The five rows of the opcode map (R83). -/
inductive Op where
  | edge | rdval | reconf | rstval | addl
  deriving DecidableEq, Repr

/-- One row: a header selects it when `hdr & mask = pattern` (R83). -/
structure OpRow where
  op : Op
  pattern : Header
  mask : Header
  deriving DecidableEq, Repr

/-- The opcode map (R83), in the table's order. -/
def opTable : List OpRow :=
  [{ op := .edge, pattern := 0x2000#16, mask := 0xFFFC#16 },
   { op := .rdval, pattern := 0x4000#16, mask := 0xFFFF#16 },
   { op := .reconf, pattern := 0x6000#16, mask := 0xE0E3#16 },
   { op := .rstval, pattern := 0x8000#16, mask := 0xFFFF#16 },
   { op := .addl, pattern := 0xA000#16, mask := 0xFFFF#16 }]

/-- `h & mask = match` (R91). -/
def OpRow.selects (r : OpRow) (h : Header) : Bool := decide (h &&& r.mask = r.pattern)

/-- The operands of a header, by the bit positions of R91. -/
def Op.extract (h : Header) : Op → Instr
  | .edge => .edge (h.getLsbD 1) (h.getLsbD 0)
  | .rdval => .rdval
  | .reconf =>
    .reconf (h.getLsbD 12) (h.getLsbD 11) (h.getLsbD 10) (h.getLsbD 9) (h.getLsbD 8) (h.getLsbD 4)
      (h.extractLsb' 2 2)
  | .rstval => .rstval
  | .addl => .addl

/-- Why a header is illegal (R85). All are reported as ILLEGAL_COMMAND (R87). -/
inductive IllegalHeader where
  /-- `op` is 000, 110 or 111. -/
  | unassignedOp
  /-- EDGE with a bit of 12:2 set. -/
  | edgeBits
  /-- RDVAL, RSTVAL or ADDL with a bit of 12:0 set. -/
  | plainBits
  /-- RECONF with a bit of 7:5 or 1:0 set. -/
  | reconfBits
  deriving DecidableEq, Repr

/-- The field `op = hdr[15:13]` (R83). -/
def opField (h : Header) : BitVec 3 := h.extractLsb' 13 3

/-- The name of an illegal header's fault, by its `op` field (R85). -/
def whyIllegal (h : Header) : IllegalHeader :=
  if opField h = 1#3 then .edgeBits
  else if opField h = 3#3 then .reconfBits
  else if opField h = 2#3 ∨ opField h = 4#3 ∨ opField h = 5#3 then .plainBits
  else .unassignedOp

/-- The decoding procedure of R91. -/
def decode (h : Header) : Except IllegalHeader Instr :=
  match opTable.find? (fun r => r.selects h) with
  | some r => .ok (r.op.extract h)
  | none => .error (whyIllegal h)

/-- The header of an operation, bit 15 first, as R83 writes the five patterns. -/
def encode : Instr → Header
  | .edge clk dt => 0b001#3 ++ 0#11 ++ BitVec.ofBool clk ++ BitVec.ofBool dt
  | .rdval => 0b010#3 ++ 0#13
  | .reconf fMode fRev fMax fMin fValue r mode =>
    0b011#3 ++ BitVec.ofBool fMode ++ BitVec.ofBool fRev ++ BitVec.ofBool fMax ++ BitVec.ofBool fMin
      ++ BitVec.ofBool fValue ++ 0#3 ++ BitVec.ofBool r ++ mode ++ 0#2
  | .rstval => 0b100#3 ++ 0#13
  | .addl => 0b101#3 ++ 0#13

/-- The instruction read from a word of spec/opcode_table.json's numbering: a header is one 16-bit word,
every row gives 16 bits, and a number with a bit above them is no header. -/
def decodeTableWord (nbits w : Nat) : Option Instr :=
  if nbits ≤ 16 ∧ w < 65536 then
    match decode (BitVec.ofNat 16 w) with
    | .ok i => some i
    | .error _ => none
  else none

end Sys2Proof
end

