-- ==== Sys2Proof/Machine/Flags.lean ====
section
/-! DEFINITION. The block stores no flag (R30). This file holds the transient values of one EDGE: the
fields of a table entry (R73, R78), the direction and the step (R74, R104), the global inversion (R25,
R105), and `changed` (R125). -/

namespace Sys2Proof.Machine

/-- The direction flag CW, bit 4 of an entry (R72). -/
def dirCW : TableByte := 0x10#8
/-- The direction flag CCW, bit 5 of an entry (R72). -/
def dirCCW : TableByte := 0x20#8

/-- `entry & 0x07`: the next state numeral (R73, R78). -/
def nextOfEntry (e : TableByte) : FsmState := (e &&& 0x07#8).setWidth 3

/-- `entry & 0x30`: the direction, kept in place (R73, R78). -/
def directionOf (e : TableByte) : TableByte := e &&& 0x30#8

/-- The step of a direction: +1 for CW, -1 for CCW, 0 for every other value, 0x30 among them (R74,
R104). -/
def stepOfDirection (d : TableByte) : Int :=
  if d = dirCW then 1 else if d = dirCCW then -1 else 0

/-- `dsign`: +1 when `rev = 0`, -1 when `rev = 1` (R25). -/
def dsign (rev : Bool) : Int := if rev then -1 else 1

/-- The step an entry resolves to, after the global inversion (R104, R105). -/
def resolvedStep (rev : Bool) (e : TableByte) : Int := stepOfDirection (directionOf e) * dsign rev

/-- `changed`: the stored result differs from the old `value`, on the full integers (R30, R125). -/
def changedBy (old new : Int) : Bool := decide (new ≠ old)

end Sys2Proof.Machine
end

