-- ==== Sys2Proof/Machine/Rom.lean ====
section
/-! DEFINITION. The transition table `T`: 32 constant bytes at the flat addresses 0 to 31, row-major
(R50, R51, R79). No operation writes it (R53). -/

namespace Sys2Proof.Machine

/-- The rows START, CW_1, CW_2, CW_3 (R79), columns 00, 01, 10, 11. -/
def romClockwise : List TableByte :=
  [0x00#8, 0x04#8, 0x01#8, 0x00#8,
   0x02#8, 0x00#8, 0x01#8, 0x00#8,
   0x02#8, 0x03#8, 0x01#8, 0x00#8,
   0x02#8, 0x03#8, 0x00#8, 0x10#8]

/-- The rows CCW_1, CCW_2, CCW_3, ILLEGAL (R79). -/
def romCounter : List TableByte :=
  [0x05#8, 0x04#8, 0x00#8, 0x00#8,
   0x05#8, 0x04#8, 0x06#8, 0x00#8,
   0x05#8, 0x00#8, 0x06#8, 0x20#8,
   0x00#8, 0x00#8, 0x00#8, 0x00#8]

/-- The 32 entries in address order (R79). -/
def rom : List TableByte := romClockwise ++ romCounter

theorem rom_length : rom.length = 32 := rfl

/-- `MemRead(addr, 1)` (R16). The addresses are exactly 0 to 31, so the read cannot miss (R52). -/
def memRead (addr : Fin 32) : TableByte := rom.get (addr.cast rom_length.symm)

/-- The address `4 * (fsm_state & 0x07) + code` of the entry an EDGE reads (R51, R100, R102). -/
def romAddr (f : FsmState) (c : Code) : Fin 32 :=
  ⟨4 * (f &&& 7#3).toNat + c.toNat, by have := (f &&& 7#3).isLt; have := c.isLt; omega⟩

/-- The entry an EDGE with code `c` reads in state `f` (R102). -/
def entryAt (f : FsmState) (c : Code) : TableByte := memRead (romAddr f c)

end Sys2Proof.Machine
end

