-- ==== Sys2Proof/Machine/Ops.lean ====
section
/-! DEFINITION. The named operations over the state that the meanings share: the register writes of R33,
the response (R88), the ending of an operation by one of the block's faults (R180, R192), the acceptance
of a command (R221) and the record of an invocation (R89). -/

namespace Sys2Proof.Machine

/-! ### Views -/

/-- `lcount` (R28). -/
def State.lcount (s : State) : Nat := s.lt.length

/-- Whether ADDL finds the table full: not `lcount < NL` (R54, R162; log entry 14). -/
def State.tableFull (s : State) : Bool :=
  match s.cfg.nl with
  | none => false
  | some n => decide (n ≤ s.lcount)

/-! ### Register writes -/

/-- `fsm_state <- f` (R103). -/
def State.commitFsm (s : State) (f : FsmState) : State := { s with fsmState := f }

/-- `value <- v`. -/
def State.storeValue (s : State) (v : Int) : State := { s with value := v }

/-- `ListenerAppend(h)`: `LT[lcount] <- h; lcount <- lcount + 1` (R54). -/
def State.listenerAppend (s : State) (h : ListenerId) : State := { s with lt := s.lt ++ [h] }

/-- The writes of an accepted RECONF, all together, with `fsm_state <- START` (R140, R143). -/
def State.reconfigure (s : State) (lo hi v : Int) (r : Bool) (m : RangeMode) : State :=
  { s with minVal := lo, maxVal := hi, value := v, rev := r, rangeMode := m, fsmState := stSTART }

/-- `busy <- 1; disp_idx <- k` (R165). -/
def State.dispatchAt (s : State) (k : Nat) : State := { s with busy := true, dispIdx := k }

/-- `busy <- 0` (R165). -/
def State.release (s : State) : State := { s with busy := false }

/-! ### Channels -/

/-- `respond(status, changed, value)` with `info`: one response, carrying `value` as it now is (R88). -/
def State.respond (s : State) (st : Status) (changed : Bool) (info : Nat) : State :=
  { s with respOut := s.respOut ++ [{ status := st, changed := changed, value := s.value, info := info }] }

/-- One ended invocation: handle `h` was presented, `a` is the answer, and `rest` are the answers still
to come (R89, R166). -/
def State.recordInvocation (s : State) (h : ListenerId) (a : Answer) (rest : List Answer) : State :=
  { s with answers := rest, notifyOut := s.notifyOut ++ [{ handle := h, answer := a }] }

/-- The acceptance of the command `c`: it leaves the channel and its buses are in place (R80, R221). -/
def State.accept (s : State) (c : Command) (rest : List Command) : State :=
  { s with cmdIn := rest, bus := c.ops }

/-! ### Ending an operation by a fault (R180, R192) -/

/-- The status a fault is reported with (R180). -/
def BlockFault.status : BlockFault → Status
  | .illegalCommand => .illegalCommand
  | .invalidConfiguration => .invalidConfiguration
  | .listenerFault _ => .listenerFault
  | .listenerTableFull => .listenerTableFull

/-- `changed` in the response of a fault: 1 only for a listener fault, whose EDGE has stored a new value
(R88, R182). -/
def BlockFault.changed : BlockFault → Bool
  | .listenerFault _ => true
  | _ => false

/-- `info` in the response of a fault: the index of the listener that faulted, otherwise 0 (R88). -/
def BlockFault.info : BlockFault → Nat
  | .listenerFault k => k
  | _ => 0

/-- `raise <Fault>`: the operation ends with the fault's response. The block saves nothing, switches no
mode, masks nothing and transfers control nowhere (R192); there is no return operation (R193). -/
def State.raise (s : State) (f : BlockFault) : State := s.respond f.status f.changed f.info

/-- The end of a command whose header selects no operation (R184). -/
def illegalCommand (s : State) : State := s.raise .illegalCommand

end Sys2Proof.Machine
end

