-- ==== Sys2Proof/Machine/Configure.lean ====
section
/-! DEFINITION. RDVAL, RECONF and RSTVAL (42_configuration_ops.md). None invokes a listener (R145, R151). -/

namespace Sys2Proof.Machine

/-- RDVAL (R148): `respond(OK, changed = 0, value)` and nothing written. -/
def execRdval (s : State) : Host.Outcome State Fault Refusal := .next (s.respond .ok false 0)

/-- RECONF (R140): the two checks of R142 before any write, then the literal replacement of the named
fields (R141) and the restart of the automaton (R143). A rejected RECONF writes no register (R142). -/
def execReconf (fMode fRev fMax fMin fValue r : Bool) (mode : ModeBits) (s : State) :
    Host.Outcome State Fault Refusal :=
  let newMin := field fMin s.busMin s.minVal
  let newMax := field fMax s.busMax s.maxVal
  match modeField fMode mode s.rangeMode with
  | none => .next (s.raise .invalidConfiguration)
  | some newMode =>
    if newMax < newMin then .next (s.raise .invalidConfiguration)
    else
      .next ((s.reconfigure newMin newMax (field fValue s.busValue s.value) (field fRev r s.rev)
        newMode).respond .ok false 0)

/-- RSTVAL (R150): `value <- 0`, whatever the bounds; nothing else is written. -/
def execRstval (s : State) : Host.Outcome State Fault Refusal :=
  .next ((s.storeValue 0).respond .ok false 0)

end Sys2Proof.Machine
end

