-- ==== Sys2Proof/Machine/Automaton.lean ====
section
/-! DEFINITION. The automaton by itself: the next-state function `next(s, code)` and the emitted direction
of R107, along a sequence of codes, and what one EDGE does in a given state. -/

namespace Sys2Proof.Machine

/-- `next(s, code)` (R107). -/
def fsmNext (f : FsmState) (c : Code) : FsmState := nextOfEntry (entryAt f c)

/-- The direction emitted (R107): `dirCW`, `dirCCW` or 0. -/
def fsmEmits (f : FsmState) (c : Code) : TableByte := directionOf (entryAt f c)

/-- The state after a sequence of codes. -/
def fsmAfter (f : FsmState) (codes : List Code) : FsmState := codes.foldl fsmNext f

/-- The states visited by a sequence of codes, one per code (95_test_vectors.md, V-SEQ). -/
def fsmVisits : FsmState → List Code → List FsmState
  | _, [] => []
  | f, c :: cs => fsmNext f c :: fsmVisits (fsmNext f c) cs

/-- The directions emitted along a sequence of codes, one per code. -/
def fsmEmissions : FsmState → List Code → List TableByte
  | _, [] => []
  | f, c :: cs => fsmEmits f c :: fsmEmissions (fsmNext f c) cs

/-- The table entry an EDGE with these levels reads in state `s` (R102). -/
def State.edgeEntry (s : State) (clk dt : Bool) : TableByte := entryAt s.fsmState (codeOf clk dt)

/-- The step an EDGE with these levels resolves to in state `s` (R104, R105). -/
def State.edgeStep (s : State) (clk dt : Bool) : Int := resolvedStep s.rev (s.edgeEntry clk dt)

/-- The state numeral an EDGE with these levels stores in state `s` (R103). -/
def State.edgeNext (s : State) (clk dt : Bool) : FsmState := nextOfEntry (s.edgeEntry clk dt)

end Sys2Proof.Machine
end

