-- ==== Sys2Proof/Machine/Range.lean ====
section
/-! DEFINITION. The range policy (41_saturation_wrap_arithmetic.md): floored modulo, clamp, span and
`ApplyStep`, over the mathematical integers (R13, R127). -/

namespace Sys2Proof.Machine

/-- Floored modulo (R14); used only with `n >= 1`. -/
def fmod (a n : Int) : Int := a % n

/-- `clamp(x, lo, hi)` (R15); used only with `lo <= hi`. -/
def clamp (x lo hi : Int) : Int := if x < lo then lo else if hi < x then hi else x

/-- `span = max_val - min_val + 1` (R122). -/
def spanOf (lo hi : Int) : Int := hi - lo + 1

/-- UNBOUNDED (R121). -/
def stepUnbounded (v step : Int) : Int := v + step

/-- WRAP (R122). -/
def stepWrap (v step lo hi : Int) : Int := lo + fmod (v - lo + step) (spanOf lo hi)

/-- BOUNDED (R123). -/
def stepBounded (v step lo hi : Int) : Int := clamp (v + step) lo hi

/-- `ApplyStep(value, step, range_mode, min_val, max_val)` (R120). `none` where WRAP or BOUNDED would be
applied with `min_val > max_val`, for which the spec gives no meaning (R126, N22). -/
def applyStep (v step : Int) (m : RangeMode) (lo hi : Int) : Option Int :=
  match m with
  | .unbounded => some (stepUnbounded v step)
  | .wrap => if lo ≤ hi then some (stepWrap v step lo hi) else none
  | .bounded => if lo ≤ hi then some (stepBounded v step lo hi) else none

/-- The result an EDGE stores for a non-zero step, or the reason why the spec gives it no meaning:
inverted bounds (N22), or a result that does not fit a finite `W` (R8, R133, U1). -/
def newValue (s : State) (step : Int) : Except Refusal Int :=
  match applyStep s.value step s.rangeMode s.minVal s.maxVal with
  | none => .error .boundsInverted
  | some v => if fitsWidth s.cfg.width v then .ok v else .error .resultOutsideWidth

end Sys2Proof.Machine
end

