-- ==== Sys2Proof/Machine/Notify.lean ====
section
/-! DEFINITION. NOTIFY, the internal micro-operation (43_observer_dispatch_mux.md): the walk over the
listener table, one invocation at a time (R165, R166), the listener fault (R167), and the channel views
an agent outside sees (R35, R39, R172). -/

namespace Sys2Proof.Machine

/-- The `while` test of `Notify()` (R165): the next listener is presented and the block waits for its
answer; after the last one `busy <- 0` and the EDGE responds OK with `changed = 1` (R100). -/
def continueWalk (s : State) : State :=
  if s.dispIdx < s.lcount then s else s.release.respond .ok true 0

/-- The beginning of `Notify()`: `busy <- 1; disp_idx <- 0` (R165). With an empty table it ends at once
(R171). -/
def startNotify (s : State) : State := continueWalk (s.dispatchAt 0)

/-- One invocation of a walk in progress (R165, R166, R167). `LT[disp_idx]` is on the notify channel.
While the listener has not answered nothing happens (R166; a listener that never answers is a hang, U5).
`done` moves on to the next index; `fault` ends the walk: `busy <- 0` and `ListenerFault(disp_idx)`. With
no listener at `disp_idx`, which no reachable state has, the `while` test ends the walk (log entry 13). -/
def dispatchStep (s : State) : State :=
  match s.lt[s.dispIdx]? with
  | none => continueWalk s
  | some h =>
    match s.answers with
    | [] => s
    | .done :: rest => continueWalk ((s.recordInvocation h .done rest).dispatchAt (s.dispIdx + 1))
    | .fault :: rest => (s.recordInvocation h .fault rest).release.raise (.listenerFault s.dispIdx)

/-! ### What an agent outside the block sees -/

/-- `value_out`: the continuous output equal to `value` (R35). -/
def State.valueOut (s : State) : Int := s.value

/-- What the notify channel carries: `LT[disp_idx]` during a dispatch and nothing otherwise (R172). -/
def State.notifyChannel (s : State) : Option ListenerId := if s.busy then s.lt[s.dispIdx]? else none

/-- Whether the command channel accepts an operation (R221). -/
def State.accepting (s : State) : Bool := !s.busy

/-- Everything that can be observed from outside (R39): the responses, the handles presented and their
order, `value_out`, and whether the channel accepts. -/
structure Observation where
  responses : List Response
  invoked : List Invocation
  presented : Option ListenerId
  valueOut : Int
  accepting : Bool
  deriving DecidableEq, Repr

def State.observe (s : State) : Observation :=
  { responses := s.respOut, invoked := s.notifyOut, presented := s.notifyChannel,
    valueOut := s.valueOut, accepting := s.accepting }

end Sys2Proof.Machine
end

