-- ==== Sys2Proof/Machine/Edge.lean ====
section
/-! DEFINITION. EDGE (`process_edge`), the operation that decodes (40_quadrature_decoder_fsm.md, R100). -/

namespace Sys2Proof.Machine

/-- The last part of EDGE: `new` is stored; a change starts the dispatch, and an absorbed step responds
`changed = 0` and invokes nobody (R100, R125, R168). -/
def storeAndNotify (s : State) (new : Int) : State :=
  if changedBy s.value new then startNotify (s.storeValue new)
  else (s.storeValue new).respond .ok false 0

/-- What follows the store of `fsm_state`: no step, no value change and no delta (R106); otherwise the
range policy, then the store (R100). -/
def resolveStep (s : State) (step : Int) : Host.Outcome State Fault Refusal :=
  if step = 0 then .next (s.respond .ok false 0)
  else
    match newValue s step with
    | .ok new => .next (storeAndNotify s new)
    | .error why => .refused why

/-- EDGE (R100): one lookup (R102), the masked store of `fsm_state` (R103) on every EDGE, the step (R104)
with its inversion (R105), the range policy (R120), the store of `value` and the dispatch. When the walk
has listeners to invoke, the state after EDGE is busy and the walk goes on in `dispatchStep`; EDGE's
response is given at the end of the walk. -/
def execEdge (clk dt : Bool) (s : State) : Host.Outcome State Fault Refusal :=
  resolveStep (s.commitFsm (s.edgeNext clk dt)) (s.edgeStep clk dt)

end Sys2Proof.Machine
end

