-- ==== Sys2Proof/Machine/Listeners.lean ====
section
/-! DEFINITION. ADDL (`add_listener`), the one operation that grows the listener table (R160). -/

namespace Sys2Proof.Machine

/-- ADDL (R160): the handle on `op_handle` is appended, whether or not it is there already (R161); a full
table raises ListenerTableFull and writes nothing (R162). -/
def execAddl (s : State) : Host.Outcome State Fault Refusal :=
  if s.tableFull then .next (s.raise .listenerTableFull)
  else .next ((s.listenerAppend s.bus.opHandle).respond .ok false 0)

end Sys2Proof.Machine
end

