-- ==== Sys2Proof/Machine/Dispatch.lean ====
section
/-! DEFINITION. One arm per constructor of `Instr`. -/

namespace Sys2Proof.Machine

def exec (i : Instr) (s : State) : Host.Outcome State Fault Refusal :=
  match i with
  | .edge clk dt => Sys2Proof.Machine.execEdge clk dt s
  | .rdval => Sys2Proof.Machine.execRdval s
  | .reconf fMode fRev fMax fMin fValue r mode => Sys2Proof.Machine.execReconf fMode fRev fMax fMin fValue r mode s
  | .rstval => Sys2Proof.Machine.execRstval s
  | .addl => Sys2Proof.Machine.execAddl s

end Sys2Proof.Machine
end

