-- ==== Sys2Proof/Machine/Reset.lean ====
section
/-! DEFINITION. Hardware reset is construction (R34, R210): the state of a new instance for any legal
parameters, and no instance for illegal ones (R187, U2). -/

namespace Sys2Proof.Machine

/-- The registers of a new instance (R34), with nothing on the channels. `disp_idx` and the buses are
unspecified there and take the values of `State.reset` (log entry 2). -/
def launch (c : Config) (p : InitParams) (m : RangeMode) : State :=
  { State.reset with
    value := p.minInit, minVal := p.minInit, maxVal := p.maxInit, rev := p.revInit, rangeMode := m,
    cfg := c }

/-- Construction (R210): `none` is 'not a legal instance' (R187). -/
def construct (c : Config) (p : InitParams) : Option State :=
  match RangeMode.ofNumeral p.modeInit with
  | none => none
  | some m => if c.legal && p.legal c then some (launch c p m) else none

end Sys2Proof.Machine
end

