-- ==== Sys2Proof/Machine/Step.lean ====
section
/-! DEFINITION. One step of the block. While a dispatch is in progress a step is one listener's answer and
no command is accepted (R166, R221). An idle block accepts the oldest command presented, and executes it
whole (R60) or refuses its header (R184); with no command presented it stays as it is (R201). -/

namespace Sys2Proof.Machine

/-- The execution of the command `c` by an idle block: decode first (R191), then the operation. -/
def runCommand (s : State) (c : Command) (rest : List Command) : Host.Outcome State Fault Refusal :=
  match decode c.hdr with
  | .ok i => exec i (s.accept c rest)
  | .error _ => .next (illegalCommand (s.accept c rest))

def step (s : State) : Host.Outcome State Fault Refusal :=
  if s.busy then .next (dispatchStep s)
  else
    match s.cmdIn with
    | [] => .next s
    | c :: rest => runCommand s c rest

/-- `s` with the header `w` presented at the head of the command channel, on the buses as they stand, and
the block idle so that the very next step accepts it (log entry 5). -/
def State.withFetchWord (s : State) (nbits w : Nat) : State :=
  { s with
    busy := false
    cmdIn := { hdr := BitVec.ofNat 16 (w % 2 ^ nbits), ops := s.bus } :: s.cmdIn }

end Sys2Proof.Machine
end

