-- ==== Sys2Proof/Machine/BigStep.lean ====
section
/-! DEFINITION. The big-step reading of a dispatch (R170): the whole walk as one step, given an answer
function `ans : index -> {done, fault}`. The machine itself runs the small-step reading of R165; this
function is what the walk comes to. -/

namespace Sys2Proof.Machine

/-- The least index below `n` at which `ans` is `fault`, if any (R170). -/
def firstFault (n : Nat) (ans : Nat → Answer) : Option Nat :=
  (List.range n).find? (fun i => decide (ans i = .fault))

/-- How many invocations the walk makes: up to and with the first that faults, or all (R170). -/
def walkLength (n : Nat) (ans : Nat → Answer) : Nat :=
  match firstFault n ans with
  | some k => k + 1
  | none => n

/-- The event list `invoke(LT[0]), ..., invoke(LT[m-1])` with the answers given (R170). -/
def walkEvents (lt : List ListenerId) (ans : Nat → Answer) (m : Nat) : List Invocation :=
  (lt.take m).zipIdx.map (fun p => { handle := p.1, answer := ans p.2 })

/-- The answers the walk takes from its environment, in order. -/
def walkAnswers (ans : Nat → Answer) (m : Nat) : List Answer := (List.range m).map ans

/-- The state a dispatch ends in, `rest` being the answers it leaves: LISTENER_FAULT with `info = k` at the
least faulting index `k`, else OK (R170). `disp_idx` stands where the walk of R165 leaves it. -/
def bigStepNotify (ans : Nat → Answer) (rest : List Answer) (s : State) : State :=
  let m := walkLength s.lcount ans
  let t := { s with
    answers := rest, notifyOut := s.notifyOut ++ walkEvents s.lt ans m, busy := false }
  match firstFault s.lcount ans with
  | some k => { t with dispIdx := k }.raise (.listenerFault k)
  | none => { t with dispIdx := s.lcount }.respond .ok true 0

end Sys2Proof.Machine
end

