-- ==== Sys2Proof/Safety.lean ====
section
/-! DEFINITION. What a safe run is: the invariant of the registers (R24, R28, R31, R37, R8), the range
invariant as corrected (R36), and the runs of a constructed instance under every liberty the spec gives
the collaborator and the listeners (R231). -/

namespace Sys2Proof.Machine

/-- The relations between registers that hold in every reachable state. -/
structure State.Inv (s : State) : Prop where
  /-- `min_val <= max_val`, in every range mode (R24). -/
  bounds : s.minVal ≤ s.maxVal
  /-- The automaton is not in ILLEGAL (R37). -/
  fsm : s.fsmState ≠ stILLEGAL
  /-- `lcount <= NL` (R28). -/
  table : ∀ n, s.cfg.nl = some n → s.lcount ≤ n
  /-- During a dispatch `disp_idx` is the index of a listener (R31). -/
  walk : s.busy = true → s.dispIdx < s.lcount
  /-- `W >= 1`. -/
  width : s.cfg.width ≠ some 0
  /-- The three number registers fit `W` (R8, R21 to R23). -/
  fitsValue : fitsWidth s.cfg.width s.value = true
  fitsMin : fitsWidth s.cfg.width s.minVal = true
  fitsMax : fitsWidth s.cfg.width s.maxVal = true

/-- The range of a finite `W` as R8 writes it: `-2^(W-1) .. 2^(W-1)-1`. -/
abbrev InWidth (w : Nat) (x : Int) : Prop := -(2 ^ (w - 1) : Int) ≤ x ∧ x ≤ (2 ^ (w - 1) : Int) - 1

/-- What RECONF reads from an operand bus that carries `presented` (R82), on an instance whose `W` is
`width`. -/
structure BusReads (width : Option Nat) (presented read : Int) : Prop where
  /-- With unbounded `W` the number presented. -/
  unbounded : width = none → read = presented
  /-- With a finite `W` the number presented, where it fits. -/
  fitting : ∀ w, width = some w → 1 ≤ w → InWidth w presented → read = presented
  /-- With a finite `W`, whatever is presented, the signed number of its low `W` bits: the model's reading
  of a number that does not fit (log entry 6). -/
  lowBits : ∀ w, width = some w → 1 ≤ w → InWidth w read ∧ (2 ^ w : Int) ∣ presented - read

/-- Each of the three number buses is read as itself and not as another (R82). -/
structure State.BusesRead (s : State) : Prop where
  value : BusReads s.cfg.width s.bus.opValue s.busValue
  min : BusReads s.cfg.width s.bus.opMin s.busMin
  max : BusReads s.cfg.width s.bus.opMax s.busMax

/-- `min_val <= value <= max_val` (R36); RSTVAL and RECONF may break it (R36 (d)). -/
def State.InRange (s : State) : Prop := s.minVal ≤ s.value ∧ s.value ≤ s.maxVal

/-- What an EDGE with a non-zero step leaves of `value`, of the dispatch and of the response channel when
the range policy gives `new` (R100, R125, R168, R171): `t` is the state after, `s` the state before. -/
structure EdgeStored (s t : State) (new : Int) : Prop where
  stored : t.value = new
  /-- An absorbed step: `changed = 0`, nobody invoked. -/
  absorbed : new = s.value →
    t.busy = s.busy ∧ t.dispIdx = s.dispIdx ∧ t.respOut = s.respOut ++ [⟨.ok, false, new, 0⟩]
  /-- A change with an empty table: the walk ends at once and `changed = 1` all the same. -/
  nobody : new ≠ s.value → s.lt = [] →
    t.busy = false ∧ t.respOut = s.respOut ++ [⟨.ok, true, new, 0⟩]
  /-- A change with listeners: the walk stands at index 0 and EDGE has not responded yet. -/
  dispatching : new ≠ s.value → s.lt ≠ [] →
    t.busy = true ∧ t.dispIdx = 0 ∧ t.respOut = s.respOut

/-- The next state of an outcome, if it has one. -/
def nextOf : Host.Outcome State Fault Refusal → Option State
  | .next t => some t
  | .fault _ => none
  | .refused _ => none

/-- One move of the system (R7): the block steps, the collaborator presents an operation with any header
and buses at any time, or the listeners' environment supplies one more answer (R231). -/
inductive Move : State → State → Prop where
  | block {s t : State} (h : step s = .next t) : Move s t
  | present (s : State) (c : Command) : Move s { s with cmdIn := s.cmdIn ++ [c] }
  | answer (s : State) (a : Answer) : Move s { s with answers := s.answers ++ [a] }

/-- The states a constructed instance can reach. Reset is the launch state only (R212). -/
inductive Reachable : State → Prop where
  | launch {c : Config} {p : InitParams} {s : State} (h : construct c p = some s) : Reachable s
  | move {s t : State} (hs : Reachable s) (h : Move s t) : Reachable t

/-- A safe state: it meets the invariant, and its next step is not refused. -/
def State.Safe (s : State) : Prop := s.Inv ∧ ∃ t, step s = .next t

end Sys2Proof.Machine
end

