-- ==== Sys2Proof/Certificates/Slice0/Obligations.lean ====
section
/-! DEFINITION. The statements for the provers. Each docstring names the rule or passage of spec/ it
formalises; where a clause rests on a choice of the model, it names the log entry. -/

open Sys2Proof Sys2Proof.Machine

/-! ### Reset and the invariant -/

/-- R34 (R210): construction with legal parameters gives the registers of R34's table. -/
def Obligations.ConstructionLoadsParameters : Prop :=
  ∀ (c : Config) (p : InitParams), c.legal = true → p.legal c = true →
    ∃ s, construct c p = some s ∧ s.minVal = p.minInit ∧ s.maxVal = p.maxInit ∧ s.rev = p.revInit ∧
      s.rangeMode.numeral = p.modeInit ∧ s.value = p.minInit ∧ s.fsmState = stSTART ∧ s.lcount = 0 ∧
      s.busy = false ∧ s.cfg = c

/-- R187: `MIN_INIT > MAX_INIT`, or `MODE_INIT` not in {1, 2, 3}, is not a legal instance. -/
def Obligations.IllegalParametersHaveNoInstance : Prop :=
  ∀ (c : Config) (p : InitParams),
    (p.maxInit < p.minInit ∨ (p.modeInit ≠ 1#2 ∧ p.modeInit ≠ 2#2 ∧ p.modeInit ≠ 3#2)) →
      construct c p = none

/-- `State.reset` (its parameters are the model's choice, log entry 1) and every constructed instance meet
the invariant of the registers, and `value` is within the bounds (the spec's inference R36 (a)). -/
def Obligations.ResetStateMeetsInvariant : Prop :=
  (State.reset.Inv ∧ State.reset.InRange) ∧
  ∀ (c : Config) (p : InitParams) (s : State), construct c p = some s → s.Inv ∧ s.InRange

/-- Every step keeps the invariant of the registers: ordered bounds (the spec's inference R24), the
automaton out of ILLEGAL (R37), `lcount <= NL` (R28), `disp_idx` at a listener during a dispatch (R31),
and the registers within `W` (R8). -/
def Obligations.StepKeepsInvariant : Prop :=
  ∀ s t : State, s.Inv → step s = .next t → t.Inv

/-- Every state a constructed instance reaches, under every liberty R231 gives the collaborator and the
listeners, meets the invariant. -/
def Obligations.ReachableStatesMeetInvariant : Prop :=
  ∀ s : State, Reachable s → s.Inv

/-- With the default, unbounded `W` the block always has a next state: no command, no operand and no
listener's answer stops it. (That an idle block without a command, and a busy block whose listener has not
answered, have themselves as the next state is the model's choice, log entry 4.) -/
def Obligations.UnboundedWidthNeverRefuses : Prop :=
  ∀ s : State, s.Inv → s.cfg.width = none → ∃ t, step s = .next t

/-- The one stop of a constructed instance (R133, U1; the refusal is U1's treatment, log entry 7): in a
state that meets the invariant an EDGE is refused exactly when a non-zero step in UNBOUNDED mode leaves the
range `-2^(W-1) .. 2^(W-1)-1` of a finite `W` (R8). Fitting `W`, here and in the invariant, is lying in
that range; with unbounded `W` every integer fits. -/
def Obligations.FiniteWidthRefusesOnlyUnboundedOverflow : Prop :=
  (∀ (w : Nat) (x : Int), fitsWidth (some w) x = true ↔
    -(2 ^ (w - 1) : Int) ≤ x ∧ x ≤ (2 ^ (w - 1) : Int) - 1) ∧
  (∀ x : Int, fitsWidth none x = true) ∧
  ∀ (clk dt : Bool) (s : State) (why : Refusal), s.Inv →
    (exec (.edge clk dt) s = .refused why ↔
      why = .resultOutsideWidth ∧ s.rangeMode = .unbounded ∧ s.edgeStep clk dt ≠ 0 ∧
        ∃ w, s.cfg.width = some w ∧ ¬ InWidth w (s.value + s.edgeStep clk dt))

/-- The model's treatment (log entry 8) of bounds no instance reaches, for which the spec gives the range
formulas no meaning (N22): an EDGE with a non-zero step in WRAP or BOUNDED mode is refused. -/
def Obligations.InvertedBoundsStopEdge : Prop :=
  ∀ (clk dt : Bool) (s : State), s.maxVal < s.minVal → s.rangeMode ≠ .unbounded →
    s.edgeStep clk dt ≠ 0 → exec (.edge clk dt) s = .refused .boundsInverted

/-! ### Headers -/

/-- Decoding and encoding are inverse to each other on all headers: no bit of an encoding is dropped, and
no header but an operation's own decodes to it (R83, R91). -/
def Obligations.DecodeInvertsEncode : Prop :=
  ∀ (h : Header) (i : Instr), decode h = .ok i ↔ h = encode i

/-- The illegal headers are the four kinds of R85 and no others, and no header selects two rows. -/
def Obligations.IllegalHeadersByField : Prop :=
  (∀ h : Header, (∃ e, decode h = .error e) ↔
    (h.extractLsb' 13 3 = 0b000#3 ∨ h.extractLsb' 13 3 = 0b110#3 ∨ h.extractLsb' 13 3 = 0b111#3) ∨
    (h.extractLsb' 13 3 = 0b001#3 ∧ h.extractLsb' 2 11 ≠ 0#11) ∨
    ((h.extractLsb' 13 3 = 0b010#3 ∨ h.extractLsb' 13 3 = 0b100#3 ∨ h.extractLsb' 13 3 = 0b101#3) ∧
      h.extractLsb' 0 13 ≠ 0#13) ∨
    (h.extractLsb' 13 3 = 0b011#3 ∧ (h.extractLsb' 5 3 ≠ 0#3 ∨ h.extractLsb' 0 2 ≠ 0#2))) ∧
  ∀ h : Header, (opTable.filter (fun r => r.selects h)).length ≤ 1

/-- Words written out from the header patterns of R83 (95_test_vectors.md, V-HDR). -/
def Obligations.SampleHeaderWordsDecode : Prop :=
  decode 0x2002#16 = .ok (.edge true false) ∧
  decode 0x4000#16 = .ok .rdval ∧
  decode 0x7F1C#16 = .ok (.reconf true true true true true true 3#2) ∧
  decode 0x740C#16 = .ok (.reconf true false true false false false 3#2) ∧
  decode 0x8000#16 = .ok .rstval ∧
  decode 0xA000#16 = .ok .addl ∧
  decode 0x2004#16 = .error .edgeBits ∧
  decode 0x6020#16 = .error .reconfBits ∧
  decode 0x9000#16 = .error .plainBits ∧
  decode 0xC000#16 = .error .unassignedOp

/-- R76 (D6): the numerals of the range modes, with 0 for none. R87 (D8): the status codes 0 to 4, and no
status has one of the codes 5, 6, 7. -/
def Obligations.ModeNumeralsAndStatusCodes : Prop :=
  (RangeMode.ofNumeral 0#2 = none ∧ RangeMode.ofNumeral 1#2 = some .unbounded ∧
    RangeMode.ofNumeral 2#2 = some .wrap ∧ RangeMode.ofNumeral 3#2 = some .bounded ∧
    ∀ m : RangeMode, RangeMode.ofNumeral m.numeral = some m) ∧
  (Status.ok.code = 0#3 ∧ Status.illegalCommand.code = 1#3 ∧ Status.invalidConfiguration.code = 2#3 ∧
    Status.listenerFault.code = 3#3 ∧ Status.listenerTableFull.code = 4#3 ∧
    ∀ st : Status, st.code ≠ 5#3 ∧ st.code ≠ 6#3 ∧ st.code ≠ 7#3)

/-! ### One step of the block -/

/-- An idle block runs the oldest command presented: the step is the operation's own meaning, on the state
in which the command has left the channel and its buses are in place (R60, R91, R221). -/
def Obligations.StepRunsDecodedCommand : Prop :=
  ∀ (s : State) (c : Command) (rest : List Command) (i : Instr),
    s.busy = false → s.cmdIn = c :: rest → decode c.hdr = .ok i →
      step s = exec i { s with cmdIn := rest, bus := c.ops }

/-- R184: an illegal header is refused by status; no register is written, no listener is invoked, and the
automaton is not restarted. -/
def Obligations.IllegalHeaderChangesNoRegister : Prop :=
  ∀ (s : State) (c : Command) (rest : List Command) (e : IllegalHeader),
    s.busy = false → s.cmdIn = c :: rest → decode c.hdr = .error e →
      step s = .next { s with
        cmdIn := rest, bus := c.ops,
        respOut := s.respOut ++ [⟨.illegalCommand, false, s.value, 0⟩] }

/-- During a dispatch the block accepts no operation and changes no register but `busy` and `disp_idx`
(R165, R166, R221). (That a block whose listener has not answered has a next state at all, itself, is the
model's choice, log entry 4.) -/
def Obligations.BusyBlockHoldsCommands : Prop :=
  ∀ s : State, s.busy = true → ∃ t, step s = .next t ∧
    t.cmdIn = s.cmdIn ∧ t.bus = s.bus ∧ t.value = s.value ∧ t.minVal = s.minVal ∧
    t.maxVal = s.maxVal ∧ t.rev = s.rev ∧ t.rangeMode = s.rangeMode ∧ t.fsmState = s.fsmState ∧
    t.lt = s.lt ∧ t.cfg = s.cfg

/-- THE MODEL'S CHOICE (log entry 4, DESIGN CHOICE): with no command presented, an idle block answers itself
as the next state. The spec says only that the block is idle between operations (R201) and that the
collaborator may stop issuing them for ever (R231). -/
def Obligations.IdleBlockKeepsItsState : Prop :=
  ∀ s : State, s.busy = false → s.cmdIn = [] → step s = .next s

/-! ### The automaton -/

/-- R79: the 32 entries, from the symbolic table, as bytes in address order; the distinct bytes; where the
two direction flags stand; and no entry whose next state is 7. -/
def Obligations.TransitionTableBytes : Prop :=
  (List.finRange 32).map memRead =
    [0x00#8, 0x04#8, 0x01#8, 0x00#8, 0x02#8, 0x00#8, 0x01#8, 0x00#8, 0x02#8, 0x03#8, 0x01#8, 0x00#8,
     0x02#8, 0x03#8, 0x00#8, 0x10#8, 0x05#8, 0x04#8, 0x00#8, 0x00#8, 0x05#8, 0x04#8, 0x06#8, 0x00#8,
     0x05#8, 0x00#8, 0x06#8, 0x20#8, 0x00#8, 0x00#8, 0x00#8, 0x00#8] ∧
  (List.finRange 32).map memRead =
    ([stSTART, stCCW1, stCW1, stSTART, stCW2, stSTART, stCW1, stSTART,
      stCW2, stCW3, stCW1, stSTART, stCW2, stCW3, stSTART].map (fun f => f.setWidth 8)) ++
    [stSTART.setWidth 8 ||| dirCW] ++
    ([stCCW2, stCCW1, stSTART, stSTART, stCCW2, stCCW1, stCCW3, stSTART,
      stCCW2, stSTART, stCCW3].map (fun f => f.setWidth 8)) ++
    [stSTART.setWidth 8 ||| dirCCW] ++
    ([stSTART, stSTART, stSTART, stSTART].map (fun f => f.setWidth 8)) ∧
  (∀ a, memRead a ∈ [0x00#8, 0x01#8, 0x02#8, 0x03#8, 0x04#8, 0x05#8, 0x06#8, 0x10#8, 0x20#8]) ∧
  (∀ b ∈ [0x00#8, 0x01#8, 0x02#8, 0x03#8, 0x04#8, 0x05#8, 0x06#8, 0x10#8, 0x20#8], ∃ a, memRead a = b) ∧
  (∀ a, memRead a = 0x10#8 ↔ a = 15) ∧ (∀ a, memRead a = 0x20#8 ↔ a = 27) ∧
  (∀ a, nextOfEntry (memRead a) ≠ stILLEGAL) ∧
  (∀ f ∈ [stSTART, stCW1, stCW2, stCW3, stCCW1, stCCW2, stCCW3], ∃ a, nextOfEntry (memRead a) = f)

/-- R107: the next state of all 32 cases, columns 00, 01, 10, 11, and the two cases that emit. -/
def Obligations.NextStateTable : Prop :=
  [stSTART, stCW1, stCW2, stCW3, stCCW1, stCCW2, stCCW3, stILLEGAL].map
      (fun f => [0b00#2, 0b01#2, 0b10#2, 0b11#2].map (fsmNext f)) =
    [[stSTART, stCCW1, stCW1, stSTART],
     [stCW2, stSTART, stCW1, stSTART],
     [stCW2, stCW3, stCW1, stSTART],
     [stCW2, stCW3, stSTART, stSTART],
     [stCCW2, stCCW1, stSTART, stSTART],
     [stCCW2, stCCW1, stCCW3, stSTART],
     [stCCW2, stSTART, stCCW3, stSTART],
     [stSTART, stSTART, stSTART, stSTART]] ∧
  ∀ (f : FsmState) (c : Code),
    fsmEmits f c = if f = stCW3 ∧ c = 0b11#2 then dirCW
      else if f = stCCW3 ∧ c = 0b11#2 then dirCCW else 0#8

/-- R108: every next state is one of 0 to 6, ILLEGAL has no predecessor, and the states reachable from
START are exactly 0 to 6. -/
def Obligations.TableClosure : Prop :=
  (∀ (f : FsmState) (c : Code), fsmNext f c ≠ stILLEGAL) ∧
  ∀ f : FsmState, (∃ codes, fsmAfter stSTART codes = f) ↔ f ≠ stILLEGAL

/-- R109: the clockwise detent 10, 00, 01, 11 from START, its one step, and the sequence of the source's
§8 (01, 11, 10, 00), which emits nothing (C1 of 90_conflicts.md). -/
def Obligations.ClockwiseDetentCodes : Prop :=
  fsmVisits stSTART [0b10#2, 0b00#2, 0b01#2, 0b11#2] = [stCW1, stCW2, stCW3, stSTART] ∧
  fsmEmissions stSTART [0b10#2, 0b00#2, 0b01#2, 0b11#2] = [0#8, 0#8, 0#8, dirCW] ∧
  (∀ rev : Bool, (fsmEmissions stSTART [0b10#2, 0b00#2, 0b01#2, 0b11#2]).map
      (fun d => stepOfDirection d * dsign rev) = [0, 0, 0, 1 * dsign rev]) ∧
  fsmVisits stSTART [0b01#2, 0b11#2, 0b10#2, 0b00#2] = [stCCW1, stSTART, stCW1, stCW2] ∧
  fsmEmissions stSTART [0b01#2, 0b11#2, 0b10#2, 0b00#2] = [0#8, 0#8, 0#8, 0#8]

/-- R110: the counter-clockwise detent 01, 00, 10, 11 from START and its one step. -/
def Obligations.CounterClockwiseDetentCodes : Prop :=
  fsmVisits stSTART [0b01#2, 0b00#2, 0b10#2, 0b11#2] = [stCCW1, stCCW2, stCCW3, stSTART] ∧
  fsmEmissions stSTART [0b01#2, 0b00#2, 0b10#2, 0b11#2] = [0#8, 0#8, 0#8, dirCCW] ∧
  ∀ rev : Bool, (fsmEmissions stSTART [0b01#2, 0b00#2, 0b10#2, 0b11#2]).map
      (fun d => stepOfDirection d * dsign rev) = [0, 0, 0, -1 * dsign rev]

/-- The detents of R109 and R110 as four EDGE commands of an idle block at START, in every range mode, with
any buses and any listeners: the first three leave `value` and respond `changed = 0`; the fourth, and only
the fourth, steps by +1 or -1 times `direction_sign`. -/
def Obligations.DetentMovesValueOnFourthEdge : Prop :=
  ∀ (clockwise : Bool) (s : State) (o1 o2 o3 o4 : Operands) (rest : List Command) (new : Int),
    s.busy = false → s.fsmState = stSTART →
    s.cmdIn =
      (if clockwise then [⟨0x2002#16, o1⟩, ⟨0x2000#16, o2⟩, ⟨0x2001#16, o3⟩, ⟨0x2003#16, o4⟩]
       else [⟨0x2001#16, o1⟩, ⟨0x2000#16, o2⟩, ⟨0x2002#16, o3⟩, ⟨0x2003#16, o4⟩]) ++ rest →
    newValue s ((if clockwise then 1 else -1) * dsign s.rev) = .ok new →
    ∃ t3 t4 : State, core.run 3 s = .next t3 ∧ step t3 = .next t4 ∧
      t3.value = s.value ∧ t3.busy = false ∧ t3.notifyOut = s.notifyOut ∧ t3.lt = s.lt ∧
      t3.respOut = s.respOut ++ List.replicate 3 ⟨.ok, false, s.value, 0⟩ ∧
      EdgeStored t3 t4 new ∧ t4.fsmState = stSTART ∧ t4.cmdIn = rest ∧ t4.lt = s.lt ∧
      t4.minVal = s.minVal ∧ t4.maxVal = s.maxVal ∧ t4.rev = s.rev ∧ t4.rangeMode = s.rangeMode

/-- R112: each of the eight back-off cases goes to START and emits nothing, and a sequence that leaves
START, stays on a path and comes back by one of them emits nothing at all. -/
def Obligations.BackOffYieldsNoStep : Prop :=
  (∀ x ∈ [(stCW1, 0b01#2), (stCW1, 0b11#2), (stCW2, 0b11#2), (stCW3, 0b10#2),
      (stCCW1, 0b10#2), (stCCW1, 0b11#2), (stCCW2, 0b11#2), (stCCW3, 0b01#2)],
    fsmNext x.1 x.2 = stSTART ∧ fsmEmits x.1 x.2 = 0#8) ∧
  ∀ (codes : List Code) (last : Code), stSTART ∉ fsmVisits stSTART codes →
    (fsmAfter stSTART codes, last) ∈ [(stCW1, 0b01#2), (stCW1, 0b11#2), (stCW2, 0b11#2), (stCW3, 0b10#2),
      (stCCW1, 0b10#2), (stCCW1, 0b11#2), (stCCW2, 0b11#2), (stCCW3, 0b01#2)] →
    ∀ d ∈ fsmEmissions stSTART (codes ++ [last]), d = 0#8

/-- The spec's inference R113: whatever the codes, the automaton stands in CW_3 (from where alone CW is
emitted) only after all three clockwise states in their order since it last was at START; the mirror holds
of CCW_3. -/
def Obligations.DetentVisitsAllThreeStates : Prop :=
  (∀ codes : List Code, fsmAfter stSTART codes = stCW3 →
    ∃ a b c d, codes = a ++ 0b10#2 :: (b ++ 0b00#2 :: (c ++ 0b01#2 :: d)) ∧
      fsmAfter stSTART a = stSTART ∧ fsmAfter stCW1 b = stCW1 ∧ fsmAfter stCW2 c = stCW2 ∧
      fsmAfter stCW3 d = stCW3 ∧ stSTART ∉ fsmVisits stCW1 (b ++ 0b00#2 :: (c ++ 0b01#2 :: d))) ∧
  (∀ codes : List Code, fsmAfter stSTART codes = stCCW3 →
    ∃ a b c d, codes = a ++ 0b01#2 :: (b ++ 0b00#2 :: (c ++ 0b10#2 :: d)) ∧
      fsmAfter stSTART a = stSTART ∧ fsmAfter stCCW1 b = stCCW1 ∧ fsmAfter stCCW2 c = stCCW2 ∧
      fsmAfter stCCW3 d = stCCW3 ∧ stSTART ∉ fsmVisits stCCW1 (b ++ 0b00#2 :: (c ++ 0b10#2 :: d)))

/-- The spec's inferences R111, R114 and R115: code 11 sends every state to START; no clockwise state has a
counter-clockwise successor or the reverse; a repeated code never emits on its repeat, and moves the
automaton on in exactly the six cases R115 lists. -/
def Obligations.PathsMeetOnlyAtStart : Prop :=
  (∀ f : FsmState, fsmNext f 0b11#2 = stSTART) ∧
  (∀ f ∈ [stCW1, stCW2, stCW3], ∀ c : Code, fsmNext f c ∉ [stCCW1, stCCW2, stCCW3]) ∧
  (∀ f ∈ [stCCW1, stCCW2, stCCW3], ∀ c : Code, fsmNext f c ∉ [stCW1, stCW2, stCW3]) ∧
  ∀ (f : FsmState) (c : Code), fsmEmits (fsmNext f c) c = 0#8 ∧
    (fsmNext (fsmNext f c) c ≠ fsmNext f c ↔
      (f, c) ∈ [(stCW1, 0b01#2), (stCCW3, 0b01#2), (stILLEGAL, 0b01#2), (stCW3, 0b10#2),
        (stCCW1, 0b10#2), (stILLEGAL, 0b10#2)])

/-! ### EDGE -/

/-- R70: `clk` is bit 1 and `dt` is bit 0 of `code`. -/
def Obligations.CodeOfLevels : Prop :=
  ∀ clk dt : Bool, (codeOf clk dt).getLsbD 1 = clk ∧ (codeOf clk dt).getLsbD 0 = dt ∧
    (codeOf clk dt).toNat = 2 * clk.toNat + dt.toNat

/-- R74: 0x10 gives +1, 0x20 gives -1, and every other value gives 0. -/
def Obligations.DirectionGivesStep : Prop :=
  stepOfDirection 0x10#8 = 1 ∧ stepOfDirection 0x20#8 = -1 ∧
  ∀ d : TableByte, d ≠ 0x10#8 → d ≠ 0x20#8 → stepOfDirection d = 0

/-- R105: `rev = 1` inverts every resolved step, 0 stays 0, and the automaton follows the same path whatever
`rev` is. -/
def Obligations.ReverseInvertsStep : Prop :=
  (∀ e : TableByte, resolvedStep false e = stepOfDirection (directionOf e) ∧
    resolvedStep true e = -resolvedStep false e) ∧
  ∀ (clk dt : Bool) (s t u : State),
    exec (.edge clk dt) { s with rev := false } = .next t →
    exec (.edge clk dt) { s with rev := true } = .next u → t.fsmState = u.fsmState

/-- R106: an EDGE without a step stores `fsm_state`, responds `(OK, changed = 0, value)` and does nothing
else. -/
def Obligations.EdgeWithoutStepMovesOnlyAutomaton : Prop :=
  ∀ (clk dt : Bool) (s : State), s.edgeStep clk dt = 0 →
    exec (.edge clk dt) s = .next { s with
      fsmState := fsmNext s.fsmState (codeOf clk dt),
      respOut := s.respOut ++ [⟨.ok, false, s.value, 0⟩] }

/-- R103: on every EDGE, whatever its step and whatever the range policy does, the stored `fsm_state` is the
low three bits of the table's entry at `4 * fsm_state + code`. -/
def Obligations.EdgeStoresMaskedEntry : Prop :=
  ∀ (clk dt : Bool) (s t : State) (a : Fin 32), a.val = 4 * s.fsmState.toNat + (codeOf clk dt).toNat →
    exec (.edge clk dt) s = .next t → t.fsmState = (memRead a &&& 0x07#8).setWidth 3

/-- R121: in UNBOUNDED mode a non-zero step is added whatever the bounds are, always changes `value`, and is
notified. With a finite `W` the premise is that the result lies in R8's range
`-2^(W-1) .. 2^(W-1)-1` (R133). -/
def Obligations.UnboundedEdgeAddsStep : Prop :=
  (∀ (clk dt : Bool) (s : State), s.rangeMode = .unbounded → s.edgeStep clk dt ≠ 0 →
    (∀ w, s.cfg.width = some w → InWidth w (s.value + s.edgeStep clk dt)) →
    ∃ t, exec (.edge clk dt) s = .next t ∧ EdgeStored s t (s.value + s.edgeStep clk dt) ∧
      t.value ≠ s.value ∧ t.fsmState = fsmNext s.fsmState (codeOf clk dt)) ∧
  stepUnbounded (-3) (-1) = -4

/-- R122: in WRAP mode the result is `min_val + fmod(value - min_val + step, span)`, within the bounds
whatever `value` was, with the rule's two worked examples. -/
def Obligations.WrapEdgeWrapsStep : Prop :=
  (∀ (clk dt : Bool) (s : State), s.Inv → s.rangeMode = .wrap → s.edgeStep clk dt ≠ 0 →
    ∃ t, exec (.edge clk dt) s = .next t ∧
      EdgeStored s t
        (s.minVal + fmod (s.value - s.minVal + s.edgeStep clk dt) (s.maxVal - s.minVal + 1)) ∧
      s.minVal ≤ t.value ∧ t.value ≤ s.maxVal ∧ 1 ≤ s.maxVal - s.minVal + 1 ∧
      t.fsmState = fsmNext s.fsmState (codeOf clk dt)) ∧
  stepWrap 5 1 0 5 = 0 ∧ stepWrap 0 (-1) 0 5 = 5

/-- R123: in BOUNDED mode the result is `clamp(value + step, min_val, max_val)`, within the bounds whatever
`value` was; an absorbed step is answered OK with `changed = 0` and nothing records it. -/
def Obligations.BoundedEdgeClampsStep : Prop :=
  (∀ (clk dt : Bool) (s : State), s.Inv → s.rangeMode = .bounded → s.edgeStep clk dt ≠ 0 →
    ∃ t, exec (.edge clk dt) s = .next t ∧
      EdgeStored s t (clamp (s.value + s.edgeStep clk dt) s.minVal s.maxVal) ∧
      s.minVal ≤ t.value ∧ t.value ≤ s.maxVal ∧
      t.fsmState = fsmNext s.fsmState (codeOf clk dt)) ∧
  stepBounded 5 1 0 5 = 5

/-- EDGE's frame (the matrix R33): it writes `fsm_state`, `value` only with a non-zero step, and `busy` and
`disp_idx`; by itself it ends no invocation and takes no answer. -/
def Obligations.EdgeFrame : Prop :=
  ∀ (clk dt : Bool) (s t : State), exec (.edge clk dt) s = .next t →
    (t.minVal = s.minVal ∧ t.maxVal = s.maxVal ∧ t.rev = s.rev ∧ t.rangeMode = s.rangeMode ∧
      t.lt = s.lt ∧ t.cfg = s.cfg ∧ t.cmdIn = s.cmdIn ∧ t.bus = s.bus ∧ t.answers = s.answers ∧
      t.notifyOut = s.notifyOut) ∧
    (s.edgeStep clk dt = 0 → t.value = s.value) ∧
    (t.value = s.value → t.busy = s.busy ∧ t.dispIdx = s.dispIdx) ∧
    (t.respOut = s.respOut ∨ ∃ r, t.respOut = s.respOut ++ [r] ∧ r.value = t.value)

/-- The spec's inferences R36 (b) to (d): in WRAP and BOUNDED mode EDGE keeps `value` within the bounds,
brings it there with any non-zero step, and leaves it as it is without one. -/
def Obligations.EdgeRestoresRange : Prop :=
  ∀ (clk dt : Bool) (s t : State), s.rangeMode ≠ .unbounded → exec (.edge clk dt) s = .next t →
    (s.InRange → t.InRange) ∧ (s.edgeStep clk dt ≠ 0 → t.InRange) ∧
    (s.edgeStep clk dt = 0 → ¬ s.InRange → ¬ t.InRange)

/-! ### The range policy -/

/-- R14: `fmod(a, n)` is the unique `r` with `0 <= r < n` and `a - r` divisible by `n`; its four examples. -/
def Obligations.FlooredModulo : Prop :=
  (∀ a n : Int, 1 ≤ n → (0 ≤ fmod a n ∧ fmod a n < n ∧ n ∣ a - fmod a n) ∧
    ∀ r : Int, 0 ≤ r → r < n → n ∣ a - r → r = fmod a n) ∧
  fmod (-1) 6 = 5 ∧ fmod 6 6 = 0 ∧ fmod (-4) 6 = 2 ∧ fmod 7 1 = 0

/-- `clamp` for ordered bounds, as R15 defines it. That BOUNDED gives nothing with `lo > hi`, so that `clamp`
is never applied there, is the model's treatment (log entry 8, DEDUCED). -/
def Obligations.ClampWithinBounds : Prop :=
  (∀ x lo hi : Int, lo ≤ hi → (x < lo → clamp x lo hi = lo) ∧ (hi < x → clamp x lo hi = hi) ∧
    (lo ≤ x → x ≤ hi → clamp x lo hi = x)) ∧
  ∀ v step lo hi : Int, hi < lo → applyStep v step .bounded lo hi = none

/-- The spec's inference R128, the laws of WRAP (a) to (h), for ordered bounds. -/
def Obligations.WrapLaws : Prop :=
  ∀ lo hi : Int, lo ≤ hi →
    stepWrap hi 1 lo hi = lo ∧ stepWrap lo (-1) lo hi = hi ∧
    (∀ v, lo ≤ v → v < hi → stepWrap v 1 lo hi = v + 1) ∧
    (∀ v, lo < v → v ≤ hi → stepWrap v (-1) lo hi = v - 1) ∧
    (∀ steps : List Int, steps ≠ [] → ∀ v, lo ≤ steps.foldl (fun x st => stepWrap x st lo hi) v ∧
      steps.foldl (fun x st => stepWrap x st lo hi) v ≤ hi) ∧
    (lo = hi → ∀ v, stepWrap v 1 lo hi = lo ∧ stepWrap v (-1) lo hi = lo) ∧
    (∀ v st, (st = 1 ∨ st = -1) → (stepWrap v st lo hi = v ↔ lo = hi ∧ v = lo)) ∧
    (∀ v, lo ≤ v → v ≤ hi → stepWrap (stepWrap v 1 lo hi) (-1) lo hi = v ∧
      stepWrap (stepWrap v (-1) lo hi) 1 lo hi = v) ∧
    (∀ v st, (st = 1 ∨ st = -1) → lo ≤ v → v ≤ hi →
      (fun x => stepWrap x st lo hi)^[(hi - lo + 1).toNat] v = v)

/-- The spec's inference R129, the laws of BOUNDED (a) to (d), for ordered bounds. -/
def Obligations.BoundedLaws : Prop :=
  ∀ lo hi : Int, lo ≤ hi →
    (∀ n : Nat, (fun x => stepBounded x 1 lo hi)^[n] hi = hi ∧
      (fun x => stepBounded x (-1) lo hi)^[n] lo = lo) ∧
    (∀ v, lo ≤ v → v < hi → stepBounded v 1 lo hi = v + 1) ∧
    (∀ v, lo < v → v ≤ hi → stepBounded v (-1) lo hi = v - 1) ∧
    (lo < hi → stepBounded (stepBounded hi 1 lo hi) (-1) lo hi = hi - 1) ∧
    (lo = hi → ∀ v, stepBounded v 1 lo hi = lo ∧ stepBounded v (-1) lo hi = lo)

/-- The spec's inference R130: in UNBOUNDED mode `N` steps of +1 add `N`, and `N` steps of -1 after them
return, whatever the bounds. -/
def Obligations.UnboundedRoundTrip : Prop :=
  ∀ (n : Nat) (v lo hi : Int),
    ((fun x => (applyStep x 1 .unbounded lo hi).getD 0)^[n] v = v + n) ∧
    ((fun x => (applyStep x (-1) .unbounded lo hi).getD 0)^[n]
      ((fun x => (applyStep x 1 .unbounded lo hi).getD 0)^[n] v) = v)

/-- The spec's inference R125: the only cases in which a non-zero step leaves `value` unchanged. -/
def Obligations.StepUnchangedCases : Prop :=
  ∀ (v step lo hi : Int) (m : RangeMode), (step = 1 ∨ step = -1) → lo ≤ hi →
    (applyStep v step m lo hi = some v ↔
      (m = .bounded ∧ v = hi ∧ step = 1) ∨ (m = .bounded ∧ v = lo ∧ step = -1) ∨
      (m = .wrap ∧ hi - lo + 1 = 1 ∧ v = lo))

/-- The spec's inference R132: for an in-range `value` both policies come to one add and two compares. -/
def Obligations.InRangeFormsAgree : Prop :=
  ∀ v step lo hi : Int, (step = 1 ∨ step = -1) → lo ≤ v → v ≤ hi →
    stepWrap v step lo hi =
      (if v + step > hi then lo else if v + step < lo then hi else v + step) ∧
    stepBounded v step lo hi =
      (if v + step > hi then hi else if v + step < lo then lo else v + step)

/-- The spec's inference R131: what the formulas do with an out-of-range `value`. -/
def Obligations.OutOfRangeValueJumps : Prop :=
  ∀ v step lo hi : Int, (step = 1 ∨ step = -1) → lo ≤ hi →
    (v < lo → stepBounded v step lo hi = lo) ∧ (hi < v → stepBounded v step lo hi = hi) ∧
    (hi - lo + 1 ∣ v + step - stepWrap v step lo hi) ∧
    (v < lo ∨ hi < v → stepWrap v step lo hi ≠ v ∧ stepBounded v step lo hi ≠ v)

/-! ### RECONF, RDVAL, RSTVAL, ADDL -/

/-- An accepted RECONF (R140, R141, R143): each named field takes exactly its operand, each unnamed field
keeps its value, the automaton restarts, and nothing else changes. The operand of a number field is what
its own bus carries (R82): the number presented when `W` is unbounded or the number fits; for a number
that does not fit a finite `W` it is the model's reading, log entry 6. -/
def Obligations.ReconfReplacesNamedFields : Prop :=
  (∀ s : State, s.BusesRead) ∧
  ∀ (fMode fRev fMax fMin fValue r : Bool) (mode : ModeBits) (s : State),
    (fMode = true → mode ≠ 0#2) →
    (if fMin then s.busMin else s.minVal) ≤ (if fMax then s.busMax else s.maxVal) →
    ∃ m : RangeMode, (fMode = true → m.numeral = mode) ∧ (fMode = false → m = s.rangeMode) ∧
      exec (.reconf fMode fRev fMax fMin fValue r mode) s = .next { s with
        minVal := if fMin then s.busMin else s.minVal,
        maxVal := if fMax then s.busMax else s.maxVal,
        value := if fValue then s.busValue else s.value,
        rev := if fRev then r else s.rev,
        rangeMode := m,
        fsmState := stSTART,
        respOut := s.respOut ++ [⟨.ok, false, if fValue then s.busValue else s.value, 0⟩] }

/-- A RECONF that names mode 0, or whose resulting bounds would be inverted, is rejected in every range mode
and writes nothing; these are all the checks (R142). A named bound is what its own bus carries (R82): the
number presented when `W` is unbounded or the number fits; for a number that does not fit a finite `W` it
is the model's reading, log entry 6. -/
def Obligations.ReconfChecks : Prop :=
  (∀ s : State, BusReads s.cfg.width s.bus.opMin s.busMin ∧ BusReads s.cfg.width s.bus.opMax s.busMax) ∧
  ∀ (fMode fRev fMax fMin fValue r : Bool) (mode : ModeBits) (s : State),
    (((fMode = true ∧ mode = 0#2) ∨
        (if fMax then s.busMax else s.maxVal) < (if fMin then s.busMin else s.minVal)) →
      exec (.reconf fMode fRev fMax fMin fValue r mode) s = .next { s with
        respOut := s.respOut ++ [⟨.invalidConfiguration, false, s.value, 0⟩] }) ∧
    (¬ ((fMode = true ∧ mode = 0#2) ∨
        (if fMax then s.busMax else s.maxVal) < (if fMin then s.busMin else s.minVal)) →
      ∃ t, exec (.reconf fMode fRev fMax fMin fValue r mode) s = .next t ∧
        t.respOut = s.respOut ++ [⟨.ok, false, t.value, 0⟩])

/-- R144: a RECONF that names no field is legal, and its only effect is `fsm_state <- START`. -/
def Obligations.EmptyReconfOnlyRestarts : Prop :=
  decode 0x6000#16 = .ok (.reconf false false false false false false 0#2) ∧
  ∀ (r : Bool) (mode : ModeBits) (s : State), s.minVal ≤ s.maxVal →
    exec (.reconf false false false false false r mode) s = .next { s with
      fsmState := stSTART, respOut := s.respOut ++ [⟨.ok, false, s.value, 0⟩] }

/-- The frame of the four operations other than EDGE (the matrix R33; R145, R147, R151): none invokes a
listener, begins a dispatch or takes an answer; only ADDL writes the listener table, and it writes no other
register; RDVAL and RSTVAL write no configuration and leave the automaton. -/
def Obligations.OtherOperationsFrame : Prop :=
  ∀ (i : Instr) (s t : State), (∀ clk dt, i ≠ .edge clk dt) → exec i s = .next t →
    (t.busy = s.busy ∧ t.dispIdx = s.dispIdx ∧ t.notifyOut = s.notifyOut ∧ t.answers = s.answers ∧
      t.cfg = s.cfg ∧ t.cmdIn = s.cmdIn ∧ t.bus = s.bus) ∧
    (i ≠ .addl → t.lt = s.lt) ∧
    (i = .rdval ∨ i = .rstval ∨ i = .addl →
      t.minVal = s.minVal ∧ t.maxVal = s.maxVal ∧ t.rev = s.rev ∧ t.rangeMode = s.rangeMode ∧
      t.fsmState = s.fsmState) ∧
    (i = .rdval ∨ i = .addl → t.value = s.value) ∧
    ∃ r, t.respOut = s.respOut ++ [r] ∧ r.changed = false ∧ r.value = t.value

/-- R148: RDVAL responds with `value` as it is, within the bounds or not, and writes nothing; while the
block is busy the channel accepts nothing and `value_out` carries the same number. (That a busy block whose
listener has not answered has a next state at all, itself, is the model's choice, log entry 4; U5 calls the
agent stuck.) -/
def Obligations.RdvalReadsValue : Prop :=
  (∀ s : State, exec .rdval s = .next { s with
    respOut := s.respOut ++ [⟨.ok, false, s.value, 0⟩] }) ∧
  (∀ s : State, s.valueOut = s.value) ∧
  ∀ s : State, s.busy = true → ∃ t, step s = .next t ∧ t.cmdIn = s.cmdIn

/-- R150: RSTVAL stores 0 whatever the bounds are and touches nothing else, so with `min_val > 0` or
`max_val < 0` the stored value lies outside them. -/
def Obligations.RstvalStoresZero : Prop :=
  ∀ s : State, exec .rstval s = .next { s with
      value := 0, respOut := s.respOut ++ [⟨.ok, false, 0, 0⟩] } ∧
    ∀ t, exec .rstval s = .next t → (0 < s.minVal ∨ s.maxVal < 0) → ¬ t.InRange

/-- R160 and R162: ADDL appends the handle on its bus; with a finite `NL` and `lcount = NL` it raises
ListenerTableFull and writes nothing. -/
def Obligations.AddlAppendsOrFindsTableFull : Prop :=
  ∀ s : State,
    ((∀ n, s.cfg.nl = some n → s.lcount < n) →
      exec .addl s = .next { s with
        lt := s.lt ++ [s.bus.opHandle], respOut := s.respOut ++ [⟨.ok, false, s.value, 0⟩] }) ∧
    (∀ n, s.cfg.nl = some n → s.lcount = n →
      exec .addl s = .next { s with
        respOut := s.respOut ++ [⟨.listenerTableFull, false, s.value, 0⟩] })

/-- The listener table is append-only (R28, R161): no step removes, reorders or overwrites an entry, and a
step adds at most one, equal handles not excepted. -/
def Obligations.ListenerTableOnlyGrows : Prop :=
  ∀ s t : State, step s = .next t →
    t.lt = s.lt ∨ ∃ c rest, s.cmdIn = c :: rest ∧ decode c.hdr = .ok .addl ∧
      t.lt = s.lt ++ [c.ops.opHandle]

/-- Whole-machine rule (R22, R23, R25, R26 and the matrix R33): a step that changes a bound, `rev` or
`range_mode` runs a RECONF, which names the register it changes. -/
def Obligations.OnlyReconfChangesConfiguration : Prop :=
  ∀ s t : State, step s = .next t →
    (t.minVal ≠ s.minVal ∨ t.maxVal ≠ s.maxVal ∨ t.rev ≠ s.rev ∨ t.rangeMode ≠ s.rangeMode) →
    ∃ c rest fMode fRev fMax fMin fValue r mode, s.busy = false ∧ s.cmdIn = c :: rest ∧
      decode c.hdr = .ok (.reconf fMode fRev fMax fMin fValue r mode) ∧
      (t.minVal ≠ s.minVal → fMin = true) ∧ (t.maxVal ≠ s.maxVal → fMax = true) ∧
      (t.rev ≠ s.rev → fRev = true) ∧ (t.rangeMode ≠ s.rangeMode → fMode = true)

/-! ### NOTIFY -/

/-- One invocation that ends with `done` (R165, R166): it is recorded, and the walk moves to the next
listener, or ends with EDGE's response `(OK, changed = 1, value)` after the last. -/
def Obligations.AnsweredListenerMovesWalkOn : Prop :=
  ∀ (s : State) (h : ListenerId) (rest : List Answer),
    s.busy = true → s.lt[s.dispIdx]? = some h → s.answers = .done :: rest →
    (s.dispIdx + 1 < s.lcount → step s = .next { s with
      answers := rest, notifyOut := s.notifyOut ++ [⟨h, .done⟩], dispIdx := s.dispIdx + 1 }) ∧
    (s.dispIdx + 1 = s.lcount → step s = .next { s with
      answers := rest, notifyOut := s.notifyOut ++ [⟨h, .done⟩], dispIdx := s.dispIdx + 1, busy := false,
      respOut := s.respOut ++ [⟨.ok, true, s.value, 0⟩] })

/-- R167: a listener that answers `fault` ends the walk. The EDGE ends with `LISTENER_FAULT`, `changed = 1`
and `info = k`; the registers keep what the EDGE committed; the block is idle again. -/
def Obligations.ListenerFaultEndsWalk : Prop :=
  ∀ (s : State) (h : ListenerId) (rest : List Answer),
    s.busy = true → s.lt[s.dispIdx]? = some h → s.answers = .fault :: rest →
    step s = .next { s with
      answers := rest, notifyOut := s.notifyOut ++ [⟨h, .fault⟩], busy := false,
      respOut := s.respOut ++ [⟨.listenerFault, true, s.value, s.dispIdx⟩] }

/-- While a listener has not answered, its handle stays on the notify channel and the command channel accepts
nothing (R166, R172, R221). That the waiting block answers itself as the next state is THE MODEL'S CHOICE
(log entry 4, DESIGN CHOICE); U5 calls the agent stuck. -/
def Obligations.UnansweredListenerHoldsBlock : Prop :=
  ∀ (s : State) (h : ListenerId), s.busy = true → s.lt[s.dispIdx]? = some h → s.answers = [] →
    step s = .next s ∧ s.notifyChannel = some h ∧ s.accepting = false

/-- The spec's inference R170: a value-changing EDGE and its whole dispatch, run in small steps by a block
whose listeners answer by `ans`, come to the one big step: the listeners up to the first that faults are
invoked once each in index order, and the response is OK, or LISTENER_FAULT with the least faulting index. -/
def Obligations.EdgeAndDispatchAreOneBigStep : Prop :=
  ∀ (s : State) (c : Command) (rest : List Command) (clk dt : Bool) (new : Int) (ans : Nat → Answer)
    (later : List Answer),
    s.busy = false → s.cmdIn = c :: rest → decode c.hdr = .ok (.edge clk dt) →
    s.edgeStep clk dt ≠ 0 → newValue s (s.edgeStep clk dt) = .ok new → new ≠ s.value →
    s.answers = walkAnswers ans (walkLength s.lcount ans) ++ later →
    core.run (1 + walkLength s.lcount ans) s = .next (bigStepNotify ans later { s with
      cmdIn := rest, bus := c.ops, fsmState := fsmNext s.fsmState (codeOf clk dt), value := new })

/-- R168: of the five operations only an EDGE that changed `value` starts a dispatch, and it always does;
with an empty table the dispatch has ended already and the response says `changed = 1`. None runs at
reset. -/
def Obligations.OnlyChangedValueNotifies : Prop :=
  (∀ (i : Instr) (s t : State), s.busy = false → exec i s = .next t →
    (t.busy = true ↔ (∃ clk dt, i = .edge clk dt) ∧ t.value ≠ s.value ∧ s.lt ≠ []) ∧
    ((∃ r, t.respOut = s.respOut ++ [r] ∧ r.changed = true) ↔
      (∃ clk dt, i = .edge clk dt) ∧ t.value ≠ s.value ∧ s.lt = []) ∧
    t.notifyOut = s.notifyOut) ∧
  ∀ (c : Config) (p : InitParams) (s : State), construct c p = some s → s.busy = false ∧ s.notifyOut = []

/-! ### What is hidden, and what leaves no mark -/

/-- No rule reads the records of the response and notify channels: a step with other records does the same
and adds the same (R38: no fault latch, no count, no history). -/
def Obligations.ChannelRecordsAreNeverRead : Prop :=
  ∀ (s t : State) (rs : List Response) (ns : List Invocation), step s = .next t →
    ∃ dr dn, t.respOut = s.respOut ++ dr ∧ t.notifyOut = s.notifyOut ++ dn ∧
      step { s with respOut := rs, notifyOut := ns } =
        .next { t with respOut := rs ++ dr, notifyOut := ns ++ dn }

/-- `fsm_state` is not observable (R27, R39, R200): for two states that differ in it alone, every operation
but EDGE ends alike to an agent outside. -/
def Obligations.AutomatonHiddenFromOtherOperations : Prop :=
  ∀ (i : Instr) (s t : State) (f : FsmState), (∀ clk dt, i ≠ .edge clk dt) → exec i s = .next t →
    ∃ u, exec i { s with fsmState := f } = .next u ∧ u.observe = t.observe
end

