-- ==== Sys2Proof/Laws/State.lean ====
section
/-! SUPPORT. One lemma per field per update of the state (Machine/Ops.lean), each true by `rfl`, so that no
later proof unfolds a record update. -/

namespace Sys2Proof.Machine

/-! ### `commitFsm` -/

@[simp] theorem commitFsm_value (s : State) (f : FsmState) : (s.commitFsm f).value = s.value := rfl
@[simp] theorem commitFsm_minVal (s : State) (f : FsmState) : (s.commitFsm f).minVal = s.minVal := rfl
@[simp] theorem commitFsm_maxVal (s : State) (f : FsmState) : (s.commitFsm f).maxVal = s.maxVal := rfl
@[simp] theorem commitFsm_rev (s : State) (f : FsmState) : (s.commitFsm f).rev = s.rev := rfl
@[simp] theorem commitFsm_rangeMode (s : State) (f : FsmState) : (s.commitFsm f).rangeMode = s.rangeMode := rfl
@[simp] theorem commitFsm_fsmState (s : State) (f : FsmState) : (s.commitFsm f).fsmState = f := rfl
@[simp] theorem commitFsm_lt (s : State) (f : FsmState) : (s.commitFsm f).lt = s.lt := rfl
@[simp] theorem commitFsm_busy (s : State) (f : FsmState) : (s.commitFsm f).busy = s.busy := rfl
@[simp] theorem commitFsm_dispIdx (s : State) (f : FsmState) : (s.commitFsm f).dispIdx = s.dispIdx := rfl
@[simp] theorem commitFsm_cfg (s : State) (f : FsmState) : (s.commitFsm f).cfg = s.cfg := rfl
@[simp] theorem commitFsm_cmdIn (s : State) (f : FsmState) : (s.commitFsm f).cmdIn = s.cmdIn := rfl
@[simp] theorem commitFsm_bus (s : State) (f : FsmState) : (s.commitFsm f).bus = s.bus := rfl
@[simp] theorem commitFsm_answers (s : State) (f : FsmState) : (s.commitFsm f).answers = s.answers := rfl
@[simp] theorem commitFsm_respOut (s : State) (f : FsmState) : (s.commitFsm f).respOut = s.respOut := rfl
@[simp] theorem commitFsm_notifyOut (s : State) (f : FsmState) : (s.commitFsm f).notifyOut = s.notifyOut := rfl

/-! ### `storeValue` -/

@[simp] theorem storeValue_value (s : State) (v : Int) : (s.storeValue v).value = v := rfl
@[simp] theorem storeValue_minVal (s : State) (v : Int) : (s.storeValue v).minVal = s.minVal := rfl
@[simp] theorem storeValue_maxVal (s : State) (v : Int) : (s.storeValue v).maxVal = s.maxVal := rfl
@[simp] theorem storeValue_rev (s : State) (v : Int) : (s.storeValue v).rev = s.rev := rfl
@[simp] theorem storeValue_rangeMode (s : State) (v : Int) : (s.storeValue v).rangeMode = s.rangeMode := rfl
@[simp] theorem storeValue_fsmState (s : State) (v : Int) : (s.storeValue v).fsmState = s.fsmState := rfl
@[simp] theorem storeValue_lt (s : State) (v : Int) : (s.storeValue v).lt = s.lt := rfl
@[simp] theorem storeValue_busy (s : State) (v : Int) : (s.storeValue v).busy = s.busy := rfl
@[simp] theorem storeValue_dispIdx (s : State) (v : Int) : (s.storeValue v).dispIdx = s.dispIdx := rfl
@[simp] theorem storeValue_cfg (s : State) (v : Int) : (s.storeValue v).cfg = s.cfg := rfl
@[simp] theorem storeValue_cmdIn (s : State) (v : Int) : (s.storeValue v).cmdIn = s.cmdIn := rfl
@[simp] theorem storeValue_bus (s : State) (v : Int) : (s.storeValue v).bus = s.bus := rfl
@[simp] theorem storeValue_answers (s : State) (v : Int) : (s.storeValue v).answers = s.answers := rfl
@[simp] theorem storeValue_respOut (s : State) (v : Int) : (s.storeValue v).respOut = s.respOut := rfl
@[simp] theorem storeValue_notifyOut (s : State) (v : Int) : (s.storeValue v).notifyOut = s.notifyOut := rfl

/-! ### `listenerAppend` -/

@[simp] theorem listenerAppend_value (s : State) (h : ListenerId) : (s.listenerAppend h).value = s.value := rfl
@[simp] theorem listenerAppend_minVal (s : State) (h : ListenerId) : (s.listenerAppend h).minVal = s.minVal := rfl
@[simp] theorem listenerAppend_maxVal (s : State) (h : ListenerId) : (s.listenerAppend h).maxVal = s.maxVal := rfl
@[simp] theorem listenerAppend_rev (s : State) (h : ListenerId) : (s.listenerAppend h).rev = s.rev := rfl
@[simp] theorem listenerAppend_rangeMode (s : State) (h : ListenerId) : (s.listenerAppend h).rangeMode = s.rangeMode := rfl
@[simp] theorem listenerAppend_fsmState (s : State) (h : ListenerId) : (s.listenerAppend h).fsmState = s.fsmState := rfl
@[simp] theorem listenerAppend_lt (s : State) (h : ListenerId) : (s.listenerAppend h).lt = s.lt ++ [h] := rfl
@[simp] theorem listenerAppend_busy (s : State) (h : ListenerId) : (s.listenerAppend h).busy = s.busy := rfl
@[simp] theorem listenerAppend_dispIdx (s : State) (h : ListenerId) : (s.listenerAppend h).dispIdx = s.dispIdx := rfl
@[simp] theorem listenerAppend_cfg (s : State) (h : ListenerId) : (s.listenerAppend h).cfg = s.cfg := rfl
@[simp] theorem listenerAppend_cmdIn (s : State) (h : ListenerId) : (s.listenerAppend h).cmdIn = s.cmdIn := rfl
@[simp] theorem listenerAppend_bus (s : State) (h : ListenerId) : (s.listenerAppend h).bus = s.bus := rfl
@[simp] theorem listenerAppend_answers (s : State) (h : ListenerId) : (s.listenerAppend h).answers = s.answers := rfl
@[simp] theorem listenerAppend_respOut (s : State) (h : ListenerId) : (s.listenerAppend h).respOut = s.respOut := rfl
@[simp] theorem listenerAppend_notifyOut (s : State) (h : ListenerId) : (s.listenerAppend h).notifyOut = s.notifyOut := rfl

/-! ### `reconfigure` -/

@[simp] theorem reconfigure_value (s : State) (lo hi v : Int) (r : Bool) (m : RangeMode) : (s.reconfigure lo hi v r m).value = v := rfl
@[simp] theorem reconfigure_minVal (s : State) (lo hi v : Int) (r : Bool) (m : RangeMode) : (s.reconfigure lo hi v r m).minVal = lo := rfl
@[simp] theorem reconfigure_maxVal (s : State) (lo hi v : Int) (r : Bool) (m : RangeMode) : (s.reconfigure lo hi v r m).maxVal = hi := rfl
@[simp] theorem reconfigure_rev (s : State) (lo hi v : Int) (r : Bool) (m : RangeMode) : (s.reconfigure lo hi v r m).rev = r := rfl
@[simp] theorem reconfigure_rangeMode (s : State) (lo hi v : Int) (r : Bool) (m : RangeMode) : (s.reconfigure lo hi v r m).rangeMode = m := rfl
@[simp] theorem reconfigure_fsmState (s : State) (lo hi v : Int) (r : Bool) (m : RangeMode) : (s.reconfigure lo hi v r m).fsmState = stSTART := rfl
@[simp] theorem reconfigure_lt (s : State) (lo hi v : Int) (r : Bool) (m : RangeMode) : (s.reconfigure lo hi v r m).lt = s.lt := rfl
@[simp] theorem reconfigure_busy (s : State) (lo hi v : Int) (r : Bool) (m : RangeMode) : (s.reconfigure lo hi v r m).busy = s.busy := rfl
@[simp] theorem reconfigure_dispIdx (s : State) (lo hi v : Int) (r : Bool) (m : RangeMode) : (s.reconfigure lo hi v r m).dispIdx = s.dispIdx := rfl
@[simp] theorem reconfigure_cfg (s : State) (lo hi v : Int) (r : Bool) (m : RangeMode) : (s.reconfigure lo hi v r m).cfg = s.cfg := rfl
@[simp] theorem reconfigure_cmdIn (s : State) (lo hi v : Int) (r : Bool) (m : RangeMode) : (s.reconfigure lo hi v r m).cmdIn = s.cmdIn := rfl
@[simp] theorem reconfigure_bus (s : State) (lo hi v : Int) (r : Bool) (m : RangeMode) : (s.reconfigure lo hi v r m).bus = s.bus := rfl
@[simp] theorem reconfigure_answers (s : State) (lo hi v : Int) (r : Bool) (m : RangeMode) : (s.reconfigure lo hi v r m).answers = s.answers := rfl
@[simp] theorem reconfigure_respOut (s : State) (lo hi v : Int) (r : Bool) (m : RangeMode) : (s.reconfigure lo hi v r m).respOut = s.respOut := rfl
@[simp] theorem reconfigure_notifyOut (s : State) (lo hi v : Int) (r : Bool) (m : RangeMode) : (s.reconfigure lo hi v r m).notifyOut = s.notifyOut := rfl

/-! ### `dispatchAt` -/

@[simp] theorem dispatchAt_value (s : State) (k : Nat) : (s.dispatchAt k).value = s.value := rfl
@[simp] theorem dispatchAt_minVal (s : State) (k : Nat) : (s.dispatchAt k).minVal = s.minVal := rfl
@[simp] theorem dispatchAt_maxVal (s : State) (k : Nat) : (s.dispatchAt k).maxVal = s.maxVal := rfl
@[simp] theorem dispatchAt_rev (s : State) (k : Nat) : (s.dispatchAt k).rev = s.rev := rfl
@[simp] theorem dispatchAt_rangeMode (s : State) (k : Nat) : (s.dispatchAt k).rangeMode = s.rangeMode := rfl
@[simp] theorem dispatchAt_fsmState (s : State) (k : Nat) : (s.dispatchAt k).fsmState = s.fsmState := rfl
@[simp] theorem dispatchAt_lt (s : State) (k : Nat) : (s.dispatchAt k).lt = s.lt := rfl
@[simp] theorem dispatchAt_busy (s : State) (k : Nat) : (s.dispatchAt k).busy = true := rfl
@[simp] theorem dispatchAt_dispIdx (s : State) (k : Nat) : (s.dispatchAt k).dispIdx = k := rfl
@[simp] theorem dispatchAt_cfg (s : State) (k : Nat) : (s.dispatchAt k).cfg = s.cfg := rfl
@[simp] theorem dispatchAt_cmdIn (s : State) (k : Nat) : (s.dispatchAt k).cmdIn = s.cmdIn := rfl
@[simp] theorem dispatchAt_bus (s : State) (k : Nat) : (s.dispatchAt k).bus = s.bus := rfl
@[simp] theorem dispatchAt_answers (s : State) (k : Nat) : (s.dispatchAt k).answers = s.answers := rfl
@[simp] theorem dispatchAt_respOut (s : State) (k : Nat) : (s.dispatchAt k).respOut = s.respOut := rfl
@[simp] theorem dispatchAt_notifyOut (s : State) (k : Nat) : (s.dispatchAt k).notifyOut = s.notifyOut := rfl

/-! ### `release` -/

@[simp] theorem release_value (s : State) : (s.release).value = s.value := rfl
@[simp] theorem release_minVal (s : State) : (s.release).minVal = s.minVal := rfl
@[simp] theorem release_maxVal (s : State) : (s.release).maxVal = s.maxVal := rfl
@[simp] theorem release_rev (s : State) : (s.release).rev = s.rev := rfl
@[simp] theorem release_rangeMode (s : State) : (s.release).rangeMode = s.rangeMode := rfl
@[simp] theorem release_fsmState (s : State) : (s.release).fsmState = s.fsmState := rfl
@[simp] theorem release_lt (s : State) : (s.release).lt = s.lt := rfl
@[simp] theorem release_busy (s : State) : (s.release).busy = false := rfl
@[simp] theorem release_dispIdx (s : State) : (s.release).dispIdx = s.dispIdx := rfl
@[simp] theorem release_cfg (s : State) : (s.release).cfg = s.cfg := rfl
@[simp] theorem release_cmdIn (s : State) : (s.release).cmdIn = s.cmdIn := rfl
@[simp] theorem release_bus (s : State) : (s.release).bus = s.bus := rfl
@[simp] theorem release_answers (s : State) : (s.release).answers = s.answers := rfl
@[simp] theorem release_respOut (s : State) : (s.release).respOut = s.respOut := rfl
@[simp] theorem release_notifyOut (s : State) : (s.release).notifyOut = s.notifyOut := rfl

/-! ### `respond` -/

@[simp] theorem respond_value (s : State) (st : Status) (ch : Bool) (k : Nat) : (s.respond st ch k).value = s.value := rfl
@[simp] theorem respond_minVal (s : State) (st : Status) (ch : Bool) (k : Nat) : (s.respond st ch k).minVal = s.minVal := rfl
@[simp] theorem respond_maxVal (s : State) (st : Status) (ch : Bool) (k : Nat) : (s.respond st ch k).maxVal = s.maxVal := rfl
@[simp] theorem respond_rev (s : State) (st : Status) (ch : Bool) (k : Nat) : (s.respond st ch k).rev = s.rev := rfl
@[simp] theorem respond_rangeMode (s : State) (st : Status) (ch : Bool) (k : Nat) : (s.respond st ch k).rangeMode = s.rangeMode := rfl
@[simp] theorem respond_fsmState (s : State) (st : Status) (ch : Bool) (k : Nat) : (s.respond st ch k).fsmState = s.fsmState := rfl
@[simp] theorem respond_lt (s : State) (st : Status) (ch : Bool) (k : Nat) : (s.respond st ch k).lt = s.lt := rfl
@[simp] theorem respond_busy (s : State) (st : Status) (ch : Bool) (k : Nat) : (s.respond st ch k).busy = s.busy := rfl
@[simp] theorem respond_dispIdx (s : State) (st : Status) (ch : Bool) (k : Nat) : (s.respond st ch k).dispIdx = s.dispIdx := rfl
@[simp] theorem respond_cfg (s : State) (st : Status) (ch : Bool) (k : Nat) : (s.respond st ch k).cfg = s.cfg := rfl
@[simp] theorem respond_cmdIn (s : State) (st : Status) (ch : Bool) (k : Nat) : (s.respond st ch k).cmdIn = s.cmdIn := rfl
@[simp] theorem respond_bus (s : State) (st : Status) (ch : Bool) (k : Nat) : (s.respond st ch k).bus = s.bus := rfl
@[simp] theorem respond_answers (s : State) (st : Status) (ch : Bool) (k : Nat) : (s.respond st ch k).answers = s.answers := rfl
@[simp] theorem respond_respOut (s : State) (st : Status) (ch : Bool) (k : Nat) : (s.respond st ch k).respOut = s.respOut ++ [⟨st, ch, s.value, k⟩] := rfl
@[simp] theorem respond_notifyOut (s : State) (st : Status) (ch : Bool) (k : Nat) : (s.respond st ch k).notifyOut = s.notifyOut := rfl

/-! ### `recordInvocation` -/

@[simp] theorem recordInvocation_value (s : State) (h : ListenerId) (a : Answer) (rest : List Answer) : (s.recordInvocation h a rest).value = s.value := rfl
@[simp] theorem recordInvocation_minVal (s : State) (h : ListenerId) (a : Answer) (rest : List Answer) : (s.recordInvocation h a rest).minVal = s.minVal := rfl
@[simp] theorem recordInvocation_maxVal (s : State) (h : ListenerId) (a : Answer) (rest : List Answer) : (s.recordInvocation h a rest).maxVal = s.maxVal := rfl
@[simp] theorem recordInvocation_rev (s : State) (h : ListenerId) (a : Answer) (rest : List Answer) : (s.recordInvocation h a rest).rev = s.rev := rfl
@[simp] theorem recordInvocation_rangeMode (s : State) (h : ListenerId) (a : Answer) (rest : List Answer) : (s.recordInvocation h a rest).rangeMode = s.rangeMode := rfl
@[simp] theorem recordInvocation_fsmState (s : State) (h : ListenerId) (a : Answer) (rest : List Answer) : (s.recordInvocation h a rest).fsmState = s.fsmState := rfl
@[simp] theorem recordInvocation_lt (s : State) (h : ListenerId) (a : Answer) (rest : List Answer) : (s.recordInvocation h a rest).lt = s.lt := rfl
@[simp] theorem recordInvocation_busy (s : State) (h : ListenerId) (a : Answer) (rest : List Answer) : (s.recordInvocation h a rest).busy = s.busy := rfl
@[simp] theorem recordInvocation_dispIdx (s : State) (h : ListenerId) (a : Answer) (rest : List Answer) : (s.recordInvocation h a rest).dispIdx = s.dispIdx := rfl
@[simp] theorem recordInvocation_cfg (s : State) (h : ListenerId) (a : Answer) (rest : List Answer) : (s.recordInvocation h a rest).cfg = s.cfg := rfl
@[simp] theorem recordInvocation_cmdIn (s : State) (h : ListenerId) (a : Answer) (rest : List Answer) : (s.recordInvocation h a rest).cmdIn = s.cmdIn := rfl
@[simp] theorem recordInvocation_bus (s : State) (h : ListenerId) (a : Answer) (rest : List Answer) : (s.recordInvocation h a rest).bus = s.bus := rfl
@[simp] theorem recordInvocation_answers (s : State) (h : ListenerId) (a : Answer) (rest : List Answer) : (s.recordInvocation h a rest).answers = rest := rfl
@[simp] theorem recordInvocation_respOut (s : State) (h : ListenerId) (a : Answer) (rest : List Answer) : (s.recordInvocation h a rest).respOut = s.respOut := rfl
@[simp] theorem recordInvocation_notifyOut (s : State) (h : ListenerId) (a : Answer) (rest : List Answer) : (s.recordInvocation h a rest).notifyOut = s.notifyOut ++ [⟨h, a⟩] := rfl

/-! ### `accept` -/

@[simp] theorem accept_value (s : State) (c : Command) (rest : List Command) : (s.accept c rest).value = s.value := rfl
@[simp] theorem accept_minVal (s : State) (c : Command) (rest : List Command) : (s.accept c rest).minVal = s.minVal := rfl
@[simp] theorem accept_maxVal (s : State) (c : Command) (rest : List Command) : (s.accept c rest).maxVal = s.maxVal := rfl
@[simp] theorem accept_rev (s : State) (c : Command) (rest : List Command) : (s.accept c rest).rev = s.rev := rfl
@[simp] theorem accept_rangeMode (s : State) (c : Command) (rest : List Command) : (s.accept c rest).rangeMode = s.rangeMode := rfl
@[simp] theorem accept_fsmState (s : State) (c : Command) (rest : List Command) : (s.accept c rest).fsmState = s.fsmState := rfl
@[simp] theorem accept_lt (s : State) (c : Command) (rest : List Command) : (s.accept c rest).lt = s.lt := rfl
@[simp] theorem accept_busy (s : State) (c : Command) (rest : List Command) : (s.accept c rest).busy = s.busy := rfl
@[simp] theorem accept_dispIdx (s : State) (c : Command) (rest : List Command) : (s.accept c rest).dispIdx = s.dispIdx := rfl
@[simp] theorem accept_cfg (s : State) (c : Command) (rest : List Command) : (s.accept c rest).cfg = s.cfg := rfl
@[simp] theorem accept_cmdIn (s : State) (c : Command) (rest : List Command) : (s.accept c rest).cmdIn = rest := rfl
@[simp] theorem accept_bus (s : State) (c : Command) (rest : List Command) : (s.accept c rest).bus = c.ops := rfl
@[simp] theorem accept_answers (s : State) (c : Command) (rest : List Command) : (s.accept c rest).answers = s.answers := rfl
@[simp] theorem accept_respOut (s : State) (c : Command) (rest : List Command) : (s.accept c rest).respOut = s.respOut := rfl
@[simp] theorem accept_notifyOut (s : State) (c : Command) (rest : List Command) : (s.accept c rest).notifyOut = s.notifyOut := rfl

/-! ### `raise` -/

@[simp] theorem raise_value (s : State) (f : BlockFault) : (s.raise f).value = s.value := rfl
@[simp] theorem raise_minVal (s : State) (f : BlockFault) : (s.raise f).minVal = s.minVal := rfl
@[simp] theorem raise_maxVal (s : State) (f : BlockFault) : (s.raise f).maxVal = s.maxVal := rfl
@[simp] theorem raise_rev (s : State) (f : BlockFault) : (s.raise f).rev = s.rev := rfl
@[simp] theorem raise_rangeMode (s : State) (f : BlockFault) : (s.raise f).rangeMode = s.rangeMode := rfl
@[simp] theorem raise_fsmState (s : State) (f : BlockFault) : (s.raise f).fsmState = s.fsmState := rfl
@[simp] theorem raise_lt (s : State) (f : BlockFault) : (s.raise f).lt = s.lt := rfl
@[simp] theorem raise_busy (s : State) (f : BlockFault) : (s.raise f).busy = s.busy := rfl
@[simp] theorem raise_dispIdx (s : State) (f : BlockFault) : (s.raise f).dispIdx = s.dispIdx := rfl
@[simp] theorem raise_cfg (s : State) (f : BlockFault) : (s.raise f).cfg = s.cfg := rfl
@[simp] theorem raise_cmdIn (s : State) (f : BlockFault) : (s.raise f).cmdIn = s.cmdIn := rfl
@[simp] theorem raise_bus (s : State) (f : BlockFault) : (s.raise f).bus = s.bus := rfl
@[simp] theorem raise_answers (s : State) (f : BlockFault) : (s.raise f).answers = s.answers := rfl
@[simp] theorem raise_respOut (s : State) (f : BlockFault) : (s.raise f).respOut = s.respOut ++ [⟨f.status, f.changed, s.value, f.info⟩] := rfl
@[simp] theorem raise_notifyOut (s : State) (f : BlockFault) : (s.raise f).notifyOut = s.notifyOut := rfl

/-! ### Faults -/

@[simp] theorem status_listenerFault (k : Nat) : (BlockFault.listenerFault k).status = .listenerFault := rfl
@[simp] theorem changed_listenerFault (k : Nat) : (BlockFault.listenerFault k).changed = true := rfl
@[simp] theorem info_listenerFault (k : Nat) : (BlockFault.listenerFault k).info = k := rfl

@[simp] theorem lcount_of_lt (s : State) : s.lcount = s.lt.length := rfl

end Sys2Proof.Machine
end

