-- ==== Sys2Proof/Laws/Ops.lean ====
section
/-! SUPPORT. For each shared operation the lemma that says once everything it can do, and the fields it
leaves alone; later proofs cite these and do not unfold the operations. -/

namespace Sys2Proof.Machine

/-! ### The walk over the listeners -/

/-- The two ways the `while` test of NOTIFY goes. -/
theorem continueWalk_cases (s : State) :
    (s.dispIdx < s.lcount ∧ continueWalk s = s) ∨
    (s.lcount ≤ s.dispIdx ∧ continueWalk s = s.release.respond .ok true 0) := by
  unfold continueWalk
  split
  · exact .inl ⟨‹_›, rfl⟩
  · exact .inr ⟨Nat.le_of_not_lt ‹_›, rfl⟩

theorem continueWalk_within {s : State} (h : s.dispIdx < s.lcount) : continueWalk s = s := if_pos h

theorem continueWalk_ended {s : State} (h : s.lcount ≤ s.dispIdx) :
    continueWalk s = s.release.respond .ok true 0 := if_neg (Nat.not_lt_of_le h)

@[simp] theorem continueWalk_value (s : State) : (continueWalk s).value = s.value := by
  obtain ⟨_, h⟩ | ⟨_, h⟩ := continueWalk_cases s <;> simp [h]
@[simp] theorem continueWalk_minVal (s : State) : (continueWalk s).minVal = s.minVal := by
  obtain ⟨_, h⟩ | ⟨_, h⟩ := continueWalk_cases s <;> simp [h]
@[simp] theorem continueWalk_maxVal (s : State) : (continueWalk s).maxVal = s.maxVal := by
  obtain ⟨_, h⟩ | ⟨_, h⟩ := continueWalk_cases s <;> simp [h]
@[simp] theorem continueWalk_rev (s : State) : (continueWalk s).rev = s.rev := by
  obtain ⟨_, h⟩ | ⟨_, h⟩ := continueWalk_cases s <;> simp [h]
@[simp] theorem continueWalk_rangeMode (s : State) : (continueWalk s).rangeMode = s.rangeMode := by
  obtain ⟨_, h⟩ | ⟨_, h⟩ := continueWalk_cases s <;> simp [h]
@[simp] theorem continueWalk_fsmState (s : State) : (continueWalk s).fsmState = s.fsmState := by
  obtain ⟨_, h⟩ | ⟨_, h⟩ := continueWalk_cases s <;> simp [h]
@[simp] theorem continueWalk_lt (s : State) : (continueWalk s).lt = s.lt := by
  obtain ⟨_, h⟩ | ⟨_, h⟩ := continueWalk_cases s <;> simp [h]
@[simp] theorem continueWalk_dispIdx (s : State) : (continueWalk s).dispIdx = s.dispIdx := by
  obtain ⟨_, h⟩ | ⟨_, h⟩ := continueWalk_cases s <;> simp [h]
@[simp] theorem continueWalk_cfg (s : State) : (continueWalk s).cfg = s.cfg := by
  obtain ⟨_, h⟩ | ⟨_, h⟩ := continueWalk_cases s <;> simp [h]
@[simp] theorem continueWalk_cmdIn (s : State) : (continueWalk s).cmdIn = s.cmdIn := by
  obtain ⟨_, h⟩ | ⟨_, h⟩ := continueWalk_cases s <;> simp [h]
@[simp] theorem continueWalk_bus (s : State) : (continueWalk s).bus = s.bus := by
  obtain ⟨_, h⟩ | ⟨_, h⟩ := continueWalk_cases s <;> simp [h]
@[simp] theorem continueWalk_answers (s : State) : (continueWalk s).answers = s.answers := by
  obtain ⟨_, h⟩ | ⟨_, h⟩ := continueWalk_cases s <;> simp [h]
@[simp] theorem continueWalk_notifyOut (s : State) : (continueWalk s).notifyOut = s.notifyOut := by
  obtain ⟨_, h⟩ | ⟨_, h⟩ := continueWalk_cases s <;> simp [h]

/-- After the `while` test a walk still in progress stands at a listener. -/
theorem continueWalk_busy {s : State} (h : (continueWalk s).busy = true) : s.dispIdx < s.lcount := by
  obtain ⟨hk, _⟩ | ⟨_, he⟩ := continueWalk_cases s
  · exact hk
  · simp [he] at h

theorem startNotify_nobody {s : State} (h : s.lt = []) :
    startNotify s = ((s.dispatchAt 0).release.respond .ok true 0) :=
  continueWalk_ended (by simp [h])

theorem startNotify_somebody {s : State} (h : s.lt ≠ []) : startNotify s = s.dispatchAt 0 :=
  continueWalk_within (by simpa using List.length_pos_iff.mpr h)

@[simp] theorem startNotify_value (s : State) : (startNotify s).value = s.value := by
  simp [startNotify]
@[simp] theorem startNotify_minVal (s : State) : (startNotify s).minVal = s.minVal := by
  simp [startNotify]
@[simp] theorem startNotify_maxVal (s : State) : (startNotify s).maxVal = s.maxVal := by
  simp [startNotify]
@[simp] theorem startNotify_rev (s : State) : (startNotify s).rev = s.rev := by
  simp [startNotify]
@[simp] theorem startNotify_rangeMode (s : State) : (startNotify s).rangeMode = s.rangeMode := by
  simp [startNotify]
@[simp] theorem startNotify_fsmState (s : State) : (startNotify s).fsmState = s.fsmState := by
  simp [startNotify]
@[simp] theorem startNotify_lt (s : State) : (startNotify s).lt = s.lt := by
  simp [startNotify]
@[simp] theorem startNotify_cfg (s : State) : (startNotify s).cfg = s.cfg := by
  simp [startNotify]
@[simp] theorem startNotify_cmdIn (s : State) : (startNotify s).cmdIn = s.cmdIn := by
  simp [startNotify]
@[simp] theorem startNotify_bus (s : State) : (startNotify s).bus = s.bus := by
  simp [startNotify]
@[simp] theorem startNotify_answers (s : State) : (startNotify s).answers = s.answers := by
  simp [startNotify]
@[simp] theorem startNotify_notifyOut (s : State) : (startNotify s).notifyOut = s.notifyOut := by
  simp [startNotify]
@[simp] theorem startNotify_dispIdx (s : State) : (startNotify s).dispIdx = 0 := by
  simp [startNotify]

/-- What one step of a walk can do. -/
theorem dispatchStep_cases (s : State) :
    (s.lcount ≤ s.dispIdx ∧ dispatchStep s = s.release.respond .ok true 0) ∨
    (∃ h, s.lt[s.dispIdx]? = some h ∧
      ((s.answers = [] ∧ dispatchStep s = s) ∨
       (∃ rest, s.answers = .done :: rest ∧
          dispatchStep s = continueWalk ((s.recordInvocation h .done rest).dispatchAt (s.dispIdx + 1))) ∨
       (∃ rest, s.answers = .fault :: rest ∧
          dispatchStep s =
            (s.recordInvocation h .fault rest).release.raise (.listenerFault s.dispIdx)))) := by
  unfold dispatchStep
  split
  · rename_i hn
    have hk : s.lcount ≤ s.dispIdx := by simpa using hn
    exact .inl ⟨hk, continueWalk_ended hk⟩
  · rename_i h hs
    refine .inr ⟨h, hs, ?_⟩
    split
    · exact .inl ⟨‹_›, rfl⟩
    · exact .inr (.inl ⟨_, ‹_›, rfl⟩)
    · exact .inr (.inr ⟨_, ‹_›, rfl⟩)

@[simp] theorem dispatchStep_value (s : State) : (dispatchStep s).value = s.value := by
  obtain ⟨_, e⟩ | ⟨_, _, ⟨_, e⟩ | ⟨_, _, e⟩ | ⟨_, _, e⟩⟩ := dispatchStep_cases s <;> simp [e]
@[simp] theorem dispatchStep_minVal (s : State) : (dispatchStep s).minVal = s.minVal := by
  obtain ⟨_, e⟩ | ⟨_, _, ⟨_, e⟩ | ⟨_, _, e⟩ | ⟨_, _, e⟩⟩ := dispatchStep_cases s <;> simp [e]
@[simp] theorem dispatchStep_maxVal (s : State) : (dispatchStep s).maxVal = s.maxVal := by
  obtain ⟨_, e⟩ | ⟨_, _, ⟨_, e⟩ | ⟨_, _, e⟩ | ⟨_, _, e⟩⟩ := dispatchStep_cases s <;> simp [e]
@[simp] theorem dispatchStep_rev (s : State) : (dispatchStep s).rev = s.rev := by
  obtain ⟨_, e⟩ | ⟨_, _, ⟨_, e⟩ | ⟨_, _, e⟩ | ⟨_, _, e⟩⟩ := dispatchStep_cases s <;> simp [e]
@[simp] theorem dispatchStep_rangeMode (s : State) : (dispatchStep s).rangeMode = s.rangeMode := by
  obtain ⟨_, e⟩ | ⟨_, _, ⟨_, e⟩ | ⟨_, _, e⟩ | ⟨_, _, e⟩⟩ := dispatchStep_cases s <;> simp [e]
@[simp] theorem dispatchStep_fsmState (s : State) : (dispatchStep s).fsmState = s.fsmState := by
  obtain ⟨_, e⟩ | ⟨_, _, ⟨_, e⟩ | ⟨_, _, e⟩ | ⟨_, _, e⟩⟩ := dispatchStep_cases s <;> simp [e]
@[simp] theorem dispatchStep_lt (s : State) : (dispatchStep s).lt = s.lt := by
  obtain ⟨_, e⟩ | ⟨_, _, ⟨_, e⟩ | ⟨_, _, e⟩ | ⟨_, _, e⟩⟩ := dispatchStep_cases s <;> simp [e]
@[simp] theorem dispatchStep_cfg (s : State) : (dispatchStep s).cfg = s.cfg := by
  obtain ⟨_, e⟩ | ⟨_, _, ⟨_, e⟩ | ⟨_, _, e⟩ | ⟨_, _, e⟩⟩ := dispatchStep_cases s <;> simp [e]
@[simp] theorem dispatchStep_cmdIn (s : State) : (dispatchStep s).cmdIn = s.cmdIn := by
  obtain ⟨_, e⟩ | ⟨_, _, ⟨_, e⟩ | ⟨_, _, e⟩ | ⟨_, _, e⟩⟩ := dispatchStep_cases s <;> simp [e]
@[simp] theorem dispatchStep_bus (s : State) : (dispatchStep s).bus = s.bus := by
  obtain ⟨_, e⟩ | ⟨_, _, ⟨_, e⟩ | ⟨_, _, e⟩ | ⟨_, _, e⟩⟩ := dispatchStep_cases s <;> simp [e]

/-! ### The end of an EDGE -/

/-- A change starts the walk; an absorbed step only responds. -/
theorem storeAndNotify_cases (s : State) (new : Int) :
    (new ≠ s.value ∧ storeAndNotify s new = startNotify (s.storeValue new)) ∨
    (new = s.value ∧ storeAndNotify s new = (s.storeValue new).respond .ok false 0) := by
  unfold storeAndNotify changedBy
  by_cases h : new = s.value <;> simp [h]

@[simp] theorem storeAndNotify_minVal (s : State) (new : Int) :
    (storeAndNotify s new).minVal = s.minVal := by
  obtain ⟨_, e⟩ | ⟨_, e⟩ := storeAndNotify_cases s new <;> simp [e]
@[simp] theorem storeAndNotify_maxVal (s : State) (new : Int) :
    (storeAndNotify s new).maxVal = s.maxVal := by
  obtain ⟨_, e⟩ | ⟨_, e⟩ := storeAndNotify_cases s new <;> simp [e]
@[simp] theorem storeAndNotify_rev (s : State) (new : Int) :
    (storeAndNotify s new).rev = s.rev := by
  obtain ⟨_, e⟩ | ⟨_, e⟩ := storeAndNotify_cases s new <;> simp [e]
@[simp] theorem storeAndNotify_rangeMode (s : State) (new : Int) :
    (storeAndNotify s new).rangeMode = s.rangeMode := by
  obtain ⟨_, e⟩ | ⟨_, e⟩ := storeAndNotify_cases s new <;> simp [e]
@[simp] theorem storeAndNotify_fsmState (s : State) (new : Int) :
    (storeAndNotify s new).fsmState = s.fsmState := by
  obtain ⟨_, e⟩ | ⟨_, e⟩ := storeAndNotify_cases s new <;> simp [e]
@[simp] theorem storeAndNotify_lt (s : State) (new : Int) :
    (storeAndNotify s new).lt = s.lt := by
  obtain ⟨_, e⟩ | ⟨_, e⟩ := storeAndNotify_cases s new <;> simp [e]
@[simp] theorem storeAndNotify_cfg (s : State) (new : Int) :
    (storeAndNotify s new).cfg = s.cfg := by
  obtain ⟨_, e⟩ | ⟨_, e⟩ := storeAndNotify_cases s new <;> simp [e]
@[simp] theorem storeAndNotify_cmdIn (s : State) (new : Int) :
    (storeAndNotify s new).cmdIn = s.cmdIn := by
  obtain ⟨_, e⟩ | ⟨_, e⟩ := storeAndNotify_cases s new <;> simp [e]
@[simp] theorem storeAndNotify_bus (s : State) (new : Int) :
    (storeAndNotify s new).bus = s.bus := by
  obtain ⟨_, e⟩ | ⟨_, e⟩ := storeAndNotify_cases s new <;> simp [e]
@[simp] theorem storeAndNotify_answers (s : State) (new : Int) :
    (storeAndNotify s new).answers = s.answers := by
  obtain ⟨_, e⟩ | ⟨_, e⟩ := storeAndNotify_cases s new <;> simp [e]
@[simp] theorem storeAndNotify_notifyOut (s : State) (new : Int) :
    (storeAndNotify s new).notifyOut = s.notifyOut := by
  obtain ⟨_, e⟩ | ⟨_, e⟩ := storeAndNotify_cases s new <;> simp [e]
@[simp] theorem storeAndNotify_value (s : State) (new : Int) : (storeAndNotify s new).value = new := by
  obtain ⟨_, e⟩ | ⟨_, e⟩ := storeAndNotify_cases s new <;> simp [e]

/-- What can follow the store of `fsm_state`. -/
theorem resolveStep_cases {s t : State} {st : Int} (h : resolveStep s st = .next t) :
    (st = 0 ∧ t = s.respond .ok false 0) ∨
    (st ≠ 0 ∧ ∃ new, newValue s st = .ok new ∧ t = storeAndNotify s new) := by
  unfold resolveStep at h
  split at h
  · exact .inl ⟨‹_›, by simpa using h.symm⟩
  · split at h
    · exact .inr ⟨‹_›, _, ‹_›, by simpa using h.symm⟩
    · cases h

theorem resolveStep_zero (s : State) : resolveStep s 0 = .next (s.respond .ok false 0) := rfl

theorem resolveStep_ok {s : State} {st new : Int} (h0 : st ≠ 0) (h : newValue s st = .ok new) :
    resolveStep s st = .next (storeAndNotify s new) := by
  simp [resolveStep, h0, h]

/-- The result an EDGE stores: what `ApplyStep` gives, if it fits. -/
theorem newValue_ok_iff {s : State} {st v : Int} :
    newValue s st = .ok v ↔
      applyStep s.value st s.rangeMode s.minVal s.maxVal = some v ∧ fitsWidth s.cfg.width v = true := by
  unfold newValue
  cases applyStep s.value st s.rangeMode s.minVal s.maxVal with
  | none => simp
  | some w =>
    by_cases hw : fitsWidth s.cfg.width w = true
    · simp only [hw, if_true, Except.ok.injEq, Option.some.injEq]
      exact ⟨fun h => ⟨h, h ▸ hw⟩, fun h => h.1⟩
    · simp only [hw, Bool.false_eq_true, if_false, reduceCtorEq, Option.some.injEq, false_iff, not_and]
      rintro rfl
      simpa using hw

@[simp] theorem newValue_commitFsm (s : State) (f : FsmState) (st : Int) :
    newValue (s.commitFsm f) st = newValue s st := rfl

/-! ### RECONF and ADDL -/

/-- RECONF either rejects and writes no register, or replaces and restarts. -/
theorem execReconf_cases {fMode fRev fMax fMin fValue r : Bool} {mode : ModeBits} {s t : State}
    (h : execReconf fMode fRev fMax fMin fValue r mode s = .next t) :
    t = s.raise .invalidConfiguration ∨
    (∃ m, modeField fMode mode s.rangeMode = some m ∧
      field fMin s.busMin s.minVal ≤ field fMax s.busMax s.maxVal ∧
      t = (s.reconfigure (field fMin s.busMin s.minVal) (field fMax s.busMax s.maxVal)
        (field fValue s.busValue s.value) (field fRev r s.rev) m).respond .ok false 0) := by
  unfold execReconf at h
  simp only at h
  split at h
  · exact .inl (by simpa using h.symm)
  · split at h
    · exact .inl (by simpa using h.symm)
    · exact .inr ⟨_, ‹_›, Int.not_lt.mp ‹_›, by simpa using h.symm⟩

/-- ADDL either finds the table full and writes no register, or appends. -/
theorem execAddl_cases {s t : State} (h : execAddl s = .next t) :
    (s.tableFull = true ∧ t = s.raise .listenerTableFull) ∨
    (s.tableFull = false ∧ t = (s.listenerAppend s.bus.opHandle).respond .ok false 0) := by
  unfold execAddl at h
  split at h
  · exact .inl ⟨‹_›, by simpa using h.symm⟩
  · exact .inr ⟨eq_false_of_ne_true ‹_›, by simpa using h.symm⟩

/-- A table that is not full has room for one more entry. -/
theorem tableFull_false {s : State} {n : Nat} (h : s.tableFull = false) (hn : s.cfg.nl = some n) :
    s.lcount < n := by
  have h' : decide (n ≤ s.lcount) = false := by simpa only [State.tableFull, hn] using h
  exact Nat.lt_of_not_le (of_decide_eq_false h')

/-! ### One step -/

/-- Everything a step can do when it answers a next state. -/
theorem step_cases {s t : State} (h : step s = .next t) :
    (s.busy = true ∧ t = dispatchStep s) ∨
    (s.busy = false ∧ s.cmdIn = [] ∧ t = s) ∨
    (∃ c rest i, s.busy = false ∧ s.cmdIn = c :: rest ∧ decode c.hdr = .ok i ∧
      exec i (s.accept c rest) = .next t) ∨
    (∃ c rest e, s.busy = false ∧ s.cmdIn = c :: rest ∧ decode c.hdr = .error e ∧
      t = illegalCommand (s.accept c rest)) := by
  unfold step at h
  split at h
  · exact .inl ⟨‹_›, by simpa using h.symm⟩
  · have hb : s.busy = false := eq_false_of_ne_true ‹_›
    split at h
    · exact .inr (.inl ⟨hb, ‹_›, by simpa using h.symm⟩)
    · rename_i c rest hc
      unfold runCommand at h
      split at h
      · exact .inr (.inr (.inl ⟨c, rest, _, hb, hc, ‹_›, h⟩))
      · exact .inr (.inr (.inr ⟨c, rest, _, hb, hc, ‹_›, by simpa using h.symm⟩))

end Sys2Proof.Machine
end

