-- ==== Sys2Proof/Laws/PerInstr.lean ====
section
/-! SUPPORT. One law per instruction as syntax: the header of an operation carries the operation's own
number in `op`, and the row it belongs to selects it. -/

namespace Sys2Proof.Laws.RowSelect

/-- The row of the opcode map an operation belongs to. -/
def rowOf : Instr → Op
  | .edge _ _ => .edge
  | .rdval => .rdval
  | .reconf _ _ _ _ _ _ _ => .reconf
  | .rstval => .rstval
  | .addl => .addl

/-- The number of a row in `op = hdr[15:13]` (R83). -/
def numberOf : Op → BitVec 3
  | .edge => 1#3
  | .rdval => 2#3
  | .reconf => 3#3
  | .rstval => 4#3
  | .addl => 5#3

/-- The rows that select `i`'s header are exactly the row of `i`, and `op` holds its number. -/
def Statement (i : Instr) : Prop :=
  (opTable.filter (fun r => r.selects (encode i))).map OpRow.op = [rowOf i] ∧
  opField (encode i) = numberOf (rowOf i)

theorem edge : ∀ clk dt, Statement (.edge clk dt) := by
  unfold Statement
  decide

theorem rdval : Statement .rdval := by
  unfold Statement
  decide

theorem reconf : ∀ fMode fRev fMax fMin fValue r mode,
    Statement (.reconf fMode fRev fMax fMin fValue r mode) := by
  intro a b c d e f m
  unfold Statement
  revert a b c d e f m
  decide

theorem rstval : Statement .rstval := by
  unfold Statement
  decide

theorem addl : Statement .addl := by
  unfold Statement
  decide

end Sys2Proof.Laws.RowSelect
end

