-- ==== Sys2Proof/Laws/Range.lean ====
section
/-! SUPPORT. The range policy and the automaton: bounds of the results, and what the table's entries can
be. -/

namespace Sys2Proof.Machine

theorem fmod_nonneg (a : Int) {n : Int} (h : 1 ≤ n) : 0 ≤ fmod a n := Int.emod_nonneg a (by omega)

theorem fmod_lt (a : Int) {n : Int} (h : 1 ≤ n) : fmod a n < n := Int.emod_lt_of_pos a (by omega)

theorem clamp_range (x : Int) {lo hi : Int} (h : lo ≤ hi) : lo ≤ clamp x lo hi ∧ clamp x lo hi ≤ hi := by
  unfold clamp
  split
  · omega
  · split <;> omega

/-- `span >= 1` whenever the bounds are ordered. -/
theorem spanOf_pos {lo hi : Int} (h : lo ≤ hi) : 1 ≤ spanOf lo hi := by
  unfold spanOf
  omega

/-- A WRAP result lies within the bounds, whatever the value was. -/
theorem stepWrap_range (v st : Int) {lo hi : Int} (h : lo ≤ hi) :
    lo ≤ stepWrap v st lo hi ∧ stepWrap v st lo hi ≤ hi := by
  have h0 := fmod_nonneg (v - lo + st) (spanOf_pos h)
  have h1 := fmod_lt (v - lo + st) (spanOf_pos h)
  unfold stepWrap spanOf at *
  omega

/-- A BOUNDED result lies within the bounds, whatever the value was. -/
theorem stepBounded_range (v st : Int) {lo hi : Int} (h : lo ≤ hi) :
    lo ≤ stepBounded v st lo hi ∧ stepBounded v st lo hi ≤ hi := clamp_range (v + st) h

/-- A number between two numbers that fit `W` fits `W`. -/
theorem fitsWidth_between {w : Option Nat} {lo x hi : Int} (hl : fitsWidth w lo = true)
    (hh : fitsWidth w hi = true) (h1 : lo ≤ x) (h2 : x ≤ hi) : fitsWidth w x = true := by
  cases w with
  | none => rfl
  | some n =>
    simp only [fitsWidth, Bool.and_eq_true, decide_eq_true_eq] at *
    omega

/-- A bus of a legal width carries a number that fits. -/
theorem fitsWidth_busSigned {w : Option Nat} (hw : w ≠ some 0) (x : Int) :
    fitsWidth w (busSigned w x) = true := by
  cases w with
  | none => rfl
  | some n =>
    obtain ⟨k, rfl⟩ : ∃ k, n = k + 1 := ⟨n - 1, by have : n ≠ 0 := by simpa using hw
                                                   omega⟩
    have hp : (0 : Nat) < 2 ^ (k + 1) := Nat.two_pow_pos _
    have h1 := Int.le_bmod (x := x) hp
    have h2 := Int.bmod_lt (x := x) hp
    have h3 : ((2 ^ (k + 1) : Nat) : Int) = 2 * 2 ^ k := by push_cast; ring
    simp only [fitsWidth, busSigned, Nat.add_sub_cancel, Bool.and_eq_true, decide_eq_true_eq]
    push_cast at h1 h2 h3
    omega

/-- A presented number that fits is read as itself. -/
theorem busSigned_of_fits {w : Option Nat} (hw : w ≠ some 0) {x : Int} (h : fitsWidth w x = true) :
    busSigned w x = x := by
  cases w with
  | none => rfl
  | some n =>
    obtain ⟨k, rfl⟩ : ∃ k, n = k + 1 := ⟨n - 1, by have : n ≠ 0 := by simpa using hw
                                                   omega⟩
    simp only [fitsWidth, Nat.add_sub_cancel, Bool.and_eq_true, decide_eq_true_eq] at h
    have h3 : ((2 ^ (k + 1) : Nat) : Int) = 2 * 2 ^ k := by push_cast; ring
    unfold busSigned
    apply Int.bmod_eq_of_le <;> omega

/-- Zero fits every legal width. -/
theorem fitsWidth_zero (w : Option Nat) : fitsWidth w 0 = true := by
  cases w with
  | none => rfl
  | some n =>
    have : (0 : Int) < 2 ^ (n - 1) := by positivity
    simp only [fitsWidth, Bool.and_eq_true, decide_eq_true_eq]
    omega

/-! ### The automaton -/

/-- A resolved step is -1, 0 or +1. -/
theorem resolvedStep_values (rev : Bool) (e : TableByte) :
    resolvedStep rev e = -1 ∨ resolvedStep rev e = 0 ∨ resolvedStep rev e = 1 := by
  unfold resolvedStep stepOfDirection dsign
  split
  · cases rev <;> simp
  · split
    · cases rev <;> simp
    · simp

theorem edgeStep_values (s : State) (clk dt : Bool) :
    s.edgeStep clk dt = -1 ∨ s.edgeStep clk dt = 0 ∨ s.edgeStep clk dt = 1 := resolvedStep_values _ _

/-- The lookup mask is redundant on the 3-bit register (90_conflicts.md C5). -/
theorem romAddr_unmasked (f : FsmState) (c : Code) : (romAddr f c).val = 4 * f.toNat + c.toNat := by
  revert f c
  decide

end Sys2Proof.Machine
end

