-- ==== Sys2Proof/Machine/Text.lean ====
section
/-! DEFINITION. The textual form of operations (R92) and the pseudo-operations CW and CCW (R93): a line of
text as data, the command it stands for, and its spelling. -/

namespace Sys2Proof.Machine

/-- The words of a RECONF line's `mode=` key (R92). -/
inductive ModeWord where
  | unbounded | wrap | bounded | invalid0
  deriving DecidableEq, Repr

/-- One line (R92). A RECONF key that is absent is `none`. -/
inductive Line where
  | edge (clk dt : Bool)
  | rdval
  | reconf (value min max : Option Int) (rev : Option Bool) (mode : Option ModeWord)
  | rstval
  | addl (h : ListenerId)
  deriving DecidableEq, Repr

def ModeWord.numeral : ModeWord → ModeBits
  | .unbounded => 1#2
  | .wrap => 2#2
  | .bounded => 3#2
  | .invalid0 => 0#2

/-- The header of a line: a key that is present sets its enable bit and operand, a key that is absent
leaves its enable bit 0 and its operand field 0 (R92). -/
def Line.instr : Line → Instr
  | .edge clk dt => .edge clk dt
  | .rdval => .rdval
  | .reconf value min max rev mode =>
    .reconf mode.isSome rev.isSome max.isSome min.isSome value.isSome (rev.getD false)
      ((mode.map ModeWord.numeral).getD 0#2)
  | .rstval => .rstval
  | .addl _ => .addl

/-- The buses of a line; a bus no key sets carries 0 here and is not read (R82, R92). -/
def Line.operands : Line → Operands
  | .reconf value min max _ _ =>
    { opValue := value.getD 0, opMin := min.getD 0, opMax := max.getD 0, opHandle := 0 }
  | .addl h => { opValue := 0, opMin := 0, opMax := 0, opHandle := h }
  | .edge _ _ => { opValue := 0, opMin := 0, opMax := 0, opHandle := 0 }
  | .rdval => { opValue := 0, opMin := 0, opMax := 0, opHandle := 0 }
  | .rstval => { opValue := 0, opMin := 0, opMax := 0, opHandle := 0 }

/-- The command a line stands for. -/
def Line.command (l : Line) : Command := { hdr := encode l.instr, ops := l.operands }

/-- `CW`: one clockwise detent from rest (R93). -/
def lineCW : List Line := [.edge true false, .edge false false, .edge false true, .edge true true]

/-- `CCW`: one counter-clockwise detent from rest (R93). -/
def lineCCW : List Line := [.edge false true, .edge false false, .edge true false, .edge true true]

/-- `CW*n`, `CCW*n`: the expansion `n` times (R93). -/
def repeatLines (n : Nat) (ls : List Line) : List Line := (List.replicate n ls).flatten

def ModeWord.text : ModeWord → String
  | .unbounded => "UNBOUNDED"
  | .wrap => "WRAP"
  | .bounded => "BOUNDED"
  | .invalid0 => "INVALID0"

def bitText (b : Bool) : String := if b then "1" else "0"

/-- ` key=word` where the key is present, and nothing where it is absent. -/
def keyText {α : Type} (key : String) (word : α → String) : Option α → String
  | some x => " " ++ key ++ "=" ++ word x
  | none => ""

/-- The spelling of a line (R92), single-spaced; a handle is written as a name `L<n>` (DESIGN CHOICE, log
entry 15). -/
def Line.text : Line → String
  | .edge clk dt => "EDGE " ++ bitText clk ++ "," ++ bitText dt
  | .rdval => "RDVAL"
  | .reconf value min max rev mode =>
    "RECONF" ++ keyText "value" (fun x : Int => toString x) value
      ++ keyText "min" (fun x : Int => toString x) min ++ keyText "max" (fun x : Int => toString x) max
      ++ keyText "rev" bitText rev ++ keyText "mode" ModeWord.text mode
  | .rstval => "RSTVAL"
  | .addl h => "ADDL L" ++ toString h

end Sys2Proof.Machine
end

