-- ==== Sys2Proof/Tests/Slice0.lean ====
section
/-! SUPPORT. The model's own tests. Expected results are the vectors of 95_test_vectors.md (named in each
docstring) or written out from the encodings of R83. The second part holds the witnesses: for every
statement with hypotheses a concrete state and operands that meet them. -/

namespace Sys2Proof.Tests

open Sys2Proof Sys2Proof.Machine

/-! ## Well-formedness: an ill-formed term for each check -/

theorem test_wf_width_zero_refused : Config.legal ⟨some 0, none⟩ = false := by decide
theorem test_wf_bounds_refused : InitParams.legal Config.unbounded ⟨6, 5, false, 2#2⟩ = false := by decide
theorem test_wf_mode_zero_refused : InitParams.legal Config.unbounded ⟨0, 5, false, 0#2⟩ = false := by decide
theorem test_wf_min_too_wide_refused : InitParams.legal ⟨some 4, none⟩ ⟨-9, 5, false, 2#2⟩ = false := by
  decide
theorem test_wf_max_too_wide_refused : InitParams.legal ⟨some 4, none⟩ ⟨0, 8, false, 2#2⟩ = false := by
  decide
theorem test_wf_widest_accepted : InitParams.legal ⟨some 4, none⟩ ⟨-8, 7, false, 2#2⟩ = true := by decide
theorem test_wf_value_bus_refused : Command.WellFormed ⟨some 4, none⟩ ⟨0x6100#16, ⟨8, 0, 0, 0⟩⟩ = false := by
  decide
theorem test_wf_min_bus_refused : Command.WellFormed ⟨some 4, none⟩ ⟨0x6200#16, ⟨0, -9, 0, 0⟩⟩ = false := by
  decide
theorem test_wf_max_bus_refused : Command.WellFormed ⟨some 4, none⟩ ⟨0x6400#16, ⟨0, 0, 8, 0⟩⟩ = false := by
  decide

/-! ## Decoding: words written out from R83, bit 15 first (V-HDR) -/

theorem test_decode_edge : decode 0b0010000000000010#16 = .ok (.edge true false) := by decide
theorem test_decode_edge_dt : decode 0b0010000000000001#16 = .ok (.edge false true) := by decide
theorem test_decode_rdval : decode 0b0100000000000000#16 = .ok .rdval := by decide
/-- `RECONF max mode=BOUNDED`, 0x740C. -/
theorem test_decode_reconf_max_bounded :
    decode 0b0111010000001100#16 = .ok (.reconf true false true false false false 3#2) := by decide
/-- Each enable bit and `r` alone, so that no two of them can be exchanged. -/
theorem test_decode_reconf_fields :
    decode 0b0111000000000100#16 = .ok (.reconf true false false false false false 1#2) ∧
    decode 0b0110100000010000#16 = .ok (.reconf false true false false false true 0#2) ∧
    decode 0b0110010000000000#16 = .ok (.reconf false false true false false false 0#2) ∧
    decode 0b0110001000000000#16 = .ok (.reconf false false false true false false 0#2) ∧
    decode 0b0110000100001000#16 = .ok (.reconf false false false false true false 2#2) := by decide
theorem test_decode_rstval : decode 0b1000000000000000#16 = .ok .rstval := by decide
theorem test_decode_addl : decode 0b1010000000000000#16 = .ok .addl := by decide
theorem test_decode_illegal :
    decode 0x0000#16 = .error .unassignedOp ∧ decode 0x2004#16 = .error .edgeBits ∧
    decode 0x4001#16 = .error .plainBits ∧ decode 0x7FFC#16 = .error .reconfBits ∧
    decode 0x7F1F#16 = .error .reconfBits ∧ decode 0xFFFF#16 = .error .unassignedOp := by decide
theorem test_decodeTableWord :
    decodeTableWord 16 0x2003 = some (.edge true true) ∧ decodeTableWord 16 0xC000 = none ∧
    decodeTableWord 16 0x12000 = none := by decide

/-! ## Text (R92, R93; V-RECONF C23) -/

theorem test_line_reconf_header :
    (Line.reconf (some (-4)) (some (-3)) (some 3) (some true) (some .bounded)).command =
      ⟨0x7F1C#16, ⟨-4, -3, 3, 0⟩⟩ := by decide
theorem test_line_reconf_text :
    (Line.reconf none none (some 9) none (some .invalid0)).text = "RECONF max=9 mode=INVALID0" := by decide
theorem test_line_detents :
    lineCW.map (fun l => l.command.hdr) = [0x2002#16, 0x2000#16, 0x2001#16, 0x2003#16] ∧
    lineCCW.map (fun l => l.command.hdr) = [0x2001#16, 0x2000#16, 0x2002#16, 0x2003#16] := by decide

/-! ## Construction (V-RESET) -/

theorem test_construct_scenario : construct Config.unbounded InitParams.scenario = some State.reset := by
  decide
theorem test_construct_bounded :
    (construct Config.unbounded ⟨2, 9, true, 3#2⟩).map (fun s => (s.value, s.minVal, s.maxVal, s.rev)) =
      some (2, 2, 9, true) := by decide
theorem test_construct_illegal : construct Config.unbounded ⟨6, 5, false, 2#2⟩ = none := by decide

/-! ## The operations, one step each -/

/-- An idle block with the given registers, one listener and unbounded parameters. -/
def sample (value lo hi : Int) (rev : Bool) (m : RangeMode) (f : FsmState) (lt : List ListenerId) : State :=
  { State.reset with
    value := value, minVal := lo, maxVal := hi, rev := rev, rangeMode := m, fsmState := f, lt := lt }

/-- The state V-RECONF starts from. -/
def reconfStart : State := sample 3 0 5 false .wrap stCW2 [0]

/-- V-ARITH A8: a wrap up, read off an EDGE that completes a clockwise detent. -/
theorem test_edge_wraps_up :
    (nextOf (exec (.edge true true) (sample 5 0 5 false .wrap stCW3 []))).map
      (fun t => (t.value, t.fsmState, t.respOut)) = some (0, stSTART, [⟨.ok, true, 0, 0⟩]) := by decide

/-- V-ARITH A33: BOUNDED, out of range below, a step of -1 (here CW with `rev = 1`) raises the value; the
one listener is now being invoked. -/
theorem test_edge_out_of_range_bounded :
    (nextOf (exec (.edge true true) (sample 0 5 10 true .bounded stCW3 [4]))).map
      (fun t => (t.value, t.busy, t.notifyChannel, t.respOut)) = some (5, true, some 4, []) := by decide

/-- V-RSTVAL T7: RDVAL does not clamp. -/
theorem test_rdval_out_of_range :
    (nextOf (exec .rdval (sample 99 0 5 false .wrap stSTART [0]))).map (fun t => t.respOut) =
      some [⟨.ok, false, 99, 0⟩] := by decide

/-- V-RECONF C12: judged on the pair; the automaton restarts and the kept value stays out of range. -/
theorem test_reconf_pair :
    (nextOf (exec (.reconf false false true true false false 0#2)
      { reconfStart with bus := ⟨0, 6, 9, 0⟩ })).map (fun t => (t.value, t.minVal, t.maxVal, t.fsmState)) =
      some (3, 6, 9, stSTART) := by decide

/-- V-RECONF C22: a valid `value` is not written when the mode is invalid, and the automaton stays. -/
theorem test_reconf_invalid_mode :
    (nextOf (exec (.reconf true false false false true false 0#2)
      { reconfStart with bus := ⟨4, 0, 0, 0⟩ })).map (fun t => (t.value, t.fsmState, t.respOut)) =
      some (3, stCW2, [⟨.invalidConfiguration, false, 3, 0⟩]) := by decide

/-- V-RSTVAL T2: the automaton is not restarted. -/
theorem test_rstval_keeps_automaton :
    (nextOf (exec .rstval (sample 3 0 5 false .wrap stCW2 []))).map (fun t => (t.value, t.fsmState)) =
      some (0, stCW2) := by decide

/-- V-ADDL L3: a handle already present is appended again. -/
theorem test_addl_duplicate :
    (nextOf (exec .addl { sample 0 0 5 false .unbounded stSTART [0, 1] with bus := ⟨0, 0, 0, 0⟩ })).map
      (fun t => t.lt) = some [0, 1, 0] := by decide

/-- V-ADDL L10: the third ADDL with `NL = 2`. -/
theorem test_addl_full :
    (nextOf (exec .addl { sample 0 0 5 false .unbounded stSTART [0, 1] with
      cfg := ⟨none, some 2⟩, bus := ⟨0, 0, 0, 2⟩ })).map (fun t => (t.lt, t.respOut)) =
      some ([0, 1], [⟨.listenerTableFull, false, 0, 0⟩]) := by decide

/-- V-NOTIFY L6: the listener at index 1 faults. -/
theorem test_notify_fault :
    (nextOf (step { sample 1 0 5 false .unbounded stSTART [0, 1, 2] with
      busy := true, dispIdx := 1, answers := [.fault, .done], notifyOut := [⟨0, .done⟩] })).map
      (fun t => (t.busy, t.notifyOut, t.respOut, t.answers)) =
      some (false, [⟨0, .done⟩, ⟨1, .fault⟩], [⟨.listenerFault, true, 1, 1⟩], [.done]) := by decide

/-- P6 line 4: header 0x0000 is refused by status. -/
theorem test_illegal_header :
    (nextOf (step (State.reset.withFetchWord 16 0))).map (fun t => (t.respOut, t.cmdIn)) =
      some ([⟨.illegalCommand, false, 0, 0⟩], []) := by decide

/-- `withFetchWord` runs the presented word as the first operation after reset. -/
theorem test_fetch_first :
    (nextOf (step (State.reset.withFetchWord 16 0x2002))).map (fun t => t.fsmState) = some stCW1 := by
  decide

/-! ## Witnesses: the hypotheses of the statements are met -/

/-- The invariant of a state with unbounded parameters. -/
theorem inv_unbounded {s : State} (hc : s.cfg = Config.unbounded) (hb : s.minVal ≤ s.maxVal)
    (hf : s.fsmState ≠ stILLEGAL) (hw : s.busy = true → s.dispIdx < s.lcount) : s.Inv :=
  { bounds := hb, fsm := hf, table := by simp [hc, Config.unbounded], walk := hw,
    width := by simp [hc, Config.unbounded], fitsValue := by simp [hc, Config.unbounded, fitsWidth],
    fitsMin := by simp [hc, Config.unbounded, fitsWidth],
    fitsMax := by simp [hc, Config.unbounded, fitsWidth] }

/-- A busy block: three listeners, the second being invoked. -/
def walking (answers : List Answer) : State :=
  { sample 1 0 5 false .unbounded stSTART [7, 8, 9] with busy := true, dispIdx := 1, answers := answers }

/-- An idle block with one command presented, on buses that carry 2, 1, 4 and handle 6. -/
def presented (s : State) (hdr : Header) : State := { s with cmdIn := [⟨hdr, ⟨2, 1, 4, 6⟩⟩] }

theorem witness_ConstructionLoadsParameters :
    Config.unbounded.legal = true ∧ InitParams.scenario.legal Config.unbounded = true := by decide
theorem witness_ConstructionLoadsParameters_finite :
    Config.legal ⟨some 1, some 0⟩ = true ∧ InitParams.legal ⟨some 1, some 0⟩ ⟨-1, 0, true, 1#2⟩ = true := by
  decide
theorem witness_IllegalParametersHaveNoInstance_bounds : (5 : Int) < 6 := by decide
theorem witness_IllegalParametersHaveNoInstance_mode :
    (0#2 : ModeBits) ≠ 1#2 ∧ (0#2 : ModeBits) ≠ 2#2 ∧ (0#2 : ModeBits) ≠ 3#2 := by decide
theorem witness_ResetStateMeetsInvariant :
    ∃ s, construct ⟨some 8, some 2⟩ ⟨-128, 127, true, 3#2⟩ = some s := ⟨_, rfl⟩

theorem witness_StepKeepsInvariant :
    (presented (sample 5 0 5 false .wrap stCW3 [7]) 0x2003#16).Inv ∧
    ∃ t, step (presented (sample 5 0 5 false .wrap stCW3 [7]) 0x2003#16) = .next t :=
  ⟨inv_unbounded rfl (by decide) (by decide) (by decide), _, rfl⟩
theorem witness_StepKeepsInvariant_dispatch :
    (walking [.done]).Inv ∧ ∃ t, step (walking [.done]) = .next t :=
  ⟨inv_unbounded rfl (by decide) (by decide) (by decide), _, rfl⟩
theorem witness_ReachableStatesMeetInvariant : Reachable State.reset := .launch test_construct_scenario
theorem witness_UnboundedWidthNeverRefuses : (walking []).Inv ∧ (walking []).cfg.width = none :=
  ⟨inv_unbounded rfl (by decide) (by decide) (by decide), rfl⟩
/-- `W = 4`, value 7, UNBOUNDED. -/
def atWidthEnd : State := { sample 7 0 5 false .unbounded stCW3 [] with cfg := ⟨some 4, none⟩ }
theorem witness_FiniteWidthRefusesOnlyUnboundedOverflow :
    atWidthEnd.Inv ∧ exec (.edge true true) atWidthEnd = .refused .resultOutsideWidth :=
  ⟨⟨by decide, by decide, by simp [atWidthEnd], by decide, by decide, by decide, by decide, by decide⟩, rfl⟩
/-- Both ends of `W = 4`: -8 and 7 fit, -9 and 8 do not; `W = 1` holds -1 and 0. -/
theorem witness_FiniteWidth_ends :
    InWidth 4 (-8) ∧ InWidth 4 7 ∧ ¬ InWidth 4 (-9) ∧ ¬ InWidth 4 8 ∧ InWidth 1 (-1) ∧ InWidth 1 0 ∧
    ¬ InWidth 1 1 ∧ ¬ InWidth 1 (-2) := by decide
/-- The lower end: `W = 4`, value -8, a counter-clockwise detent. -/
def atWidthLowEnd : State := { sample (-8) 0 5 false .unbounded stCCW3 [] with cfg := ⟨some 4, none⟩ }
theorem witness_FiniteWidthRefusesOnlyUnboundedOverflow_low :
    atWidthLowEnd.Inv ∧ exec (.edge true true) atWidthLowEnd = .refused .resultOutsideWidth :=
  ⟨⟨by decide, by decide, by simp [atWidthLowEnd], by decide, by decide, by decide, by decide, by decide⟩,
    rfl⟩
theorem witness_InvertedBoundsStopEdge :
    (sample 0 5 4 false .wrap stCW3 []).maxVal < (sample 0 5 4 false .wrap stCW3 []).minVal ∧
    (sample 0 5 4 false .wrap stCW3 []).rangeMode ≠ .unbounded ∧
    (sample 0 5 4 false .wrap stCW3 []).edgeStep true true ≠ 0 := by decide

theorem witness_StepRunsDecodedCommand :
    reconfStart.busy = false ∧ (presented reconfStart 0x6100#16).cmdIn = [⟨0x6100#16, ⟨2, 1, 4, 6⟩⟩] ∧
    decode 0x6100#16 = .ok (.reconf false false false false true false 0#2) := by decide
theorem witness_IllegalHeaderChangesNoRegister :
    (presented reconfStart 0x6001#16).busy = false ∧
    (presented reconfStart 0x6001#16).cmdIn = [⟨0x6001#16, ⟨2, 1, 4, 6⟩⟩] ∧
    decode 0x6001#16 = .error .reconfBits := by decide
theorem witness_BusyBlockHoldsCommands : (walking []).busy = true := rfl
theorem witness_IdleBlockKeepsItsState : State.reset.busy = false ∧ State.reset.cmdIn = [] := by decide

/-- Four EDGE commands of a detent, on any buses. -/
def detentStart (clockwise : Bool) : State :=
  { sample 5 0 5 false .wrap stSTART [7] with
    cmdIn := (if clockwise then lineCW else lineCCW).map Line.command }
theorem witness_DetentMovesValueOnFourthEdge :
    (detentStart true).busy = false ∧ (detentStart true).fsmState = stSTART ∧
    (detentStart true).cmdIn.map (fun c => c.hdr) = [0x2002#16, 0x2000#16, 0x2001#16, 0x2003#16] ∧
    newValue (detentStart true) (1 * dsign false) = .ok 0 := by decide
theorem witness_DetentMovesValueOnFourthEdge_counter :
    (detentStart false).busy = false ∧ (detentStart false).fsmState = stSTART ∧
    (detentStart false).cmdIn.map (fun c => c.hdr) = [0x2001#16, 0x2000#16, 0x2002#16, 0x2003#16] ∧
    newValue (detentStart false) (-1 * dsign false) = .ok 4 := by decide
theorem witness_BackOffYieldsNoStep :
    stSTART ∉ fsmVisits stSTART [0b01#2, 0b00#2, 0b10#2] ∧
    fsmAfter stSTART [0b01#2, 0b00#2, 0b10#2] = stCCW3 := by decide
theorem witness_DetentVisitsAllThreeStates :
    fsmAfter stSTART [0b10#2, 0b00#2, 0b10#2, 0b00#2, 0b01#2] = stCW3 := by decide
theorem witness_DetentVisitsAllThreeStates_mirror :
    fsmAfter stSTART [0b11#2, 0b01#2, 0b00#2, 0b10#2] = stCCW3 := by decide

theorem witness_DirectionGivesStep : (0x30#8 : TableByte) ≠ 0x10#8 ∧ (0x30#8 : TableByte) ≠ 0x20#8 := by
  decide
theorem witness_ReverseInvertsStep :
    (∃ t, exec (.edge true true) { sample 5 0 5 true .bounded stCW3 [] with rev := false } = .next t) ∧
    (∃ u, exec (.edge true true) { sample 5 0 5 true .bounded stCW3 [] with rev := true } = .next u) :=
  ⟨⟨_, rfl⟩, _, rfl⟩
theorem witness_EdgeWithoutStepMovesOnlyAutomaton :
    (sample 9 0 5 true .wrap stCW2 [7]).edgeStep false true = 0 := by decide
theorem witness_EdgeStoresMaskedEntry :
    (15 : Fin 32).val = 4 * (sample 5 0 5 false .bounded stCW3 []).fsmState.toNat + (codeOf true true).toNat ∧
    ∃ t, exec (.edge true true) (sample 5 0 5 false .bounded stCW3 []) = .next t := ⟨by decide, _, rfl⟩
theorem witness_UnboundedEdgeAddsStep :
    (sample 5 0 5 false .unbounded stCW3 [7]).rangeMode = .unbounded ∧
    (sample 5 0 5 false .unbounded stCW3 [7]).edgeStep true true ≠ 0 ∧
    (∀ w, (sample 5 0 5 false .unbounded stCW3 [7]).cfg.width = some w → InWidth w 6) :=
  ⟨rfl, by decide, by simp [sample, State.reset, Config.unbounded]⟩
/-- The last results that fit `W = 4`: 7 from 6, and -8 from -7. -/
theorem witness_UnboundedEdgeAddsStep_ends :
    (∀ w, some 4 = some w → InWidth w (6 + { atWidthEnd with value := 6 }.edgeStep true true)) ∧
    (∀ w, some 4 = some w → InWidth w (-7 + { atWidthLowEnd with value := -7 }.edgeStep true true)) ∧
    (nextOf (exec (.edge true true) { atWidthEnd with value := 6 })).map (fun t => t.value) = some 7 ∧
    (nextOf (exec (.edge true true) { atWidthLowEnd with value := -7 })).map (fun t => t.value) =
      some (-8) :=
  ⟨by rintro w ⟨⟩; decide, by rintro w ⟨⟩; decide, by decide, by decide⟩
theorem witness_WrapEdgeWrapsStep :
    (sample 5 0 5 false .wrap stCW3 [7]).Inv ∧ (sample 5 0 5 false .wrap stCW3 [7]).rangeMode = .wrap ∧
    (sample 5 0 5 false .wrap stCW3 [7]).edgeStep true true ≠ 0 :=
  ⟨inv_unbounded rfl (by decide) (by decide) (by decide), rfl, by decide⟩
theorem witness_BoundedEdgeClampsStep :
    (sample 5 0 5 false .bounded stCCW3 [7]).Inv ∧
    (sample 5 0 5 false .bounded stCCW3 [7]).rangeMode = .bounded ∧
    (sample 5 0 5 false .bounded stCCW3 [7]).edgeStep true true ≠ 0 :=
  ⟨inv_unbounded rfl (by decide) (by decide) (by decide), rfl, by decide⟩
theorem witness_EdgeStored_absorbed : stepBounded 5 1 0 5 = 5 := by decide
theorem witness_EdgeFrame : ∃ t, exec (.edge true true) (sample 5 0 5 false .wrap stCW3 [7]) = .next t :=
  ⟨_, rfl⟩
theorem witness_EdgeFrame_unchanged :
    (sample 5 0 5 false .wrap stCW1 [7]).edgeStep true true = 0 ∧
    (nextOf (exec (.edge true true) (sample 5 0 5 false .wrap stCW1 [7]))).map (fun t => t.value) =
      some 5 := by decide
theorem witness_EdgeRestoresRange :
    (sample 5 0 5 false .wrap stCW3 []).rangeMode ≠ .unbounded ∧ (sample 5 0 5 false .wrap stCW3 []).InRange ∧
    ∃ t, exec (.edge true true) (sample 5 0 5 false .wrap stCW3 []) = .next t :=
  ⟨by decide, ⟨by decide, by decide⟩, _, rfl⟩
theorem witness_EdgeRestoresRange_outside :
    ¬ (sample 6 0 5 false .bounded stCW1 []).InRange ∧
    (sample 6 0 5 false .bounded stCW1 []).edgeStep true true = 0 ∧
    (sample 6 0 5 false .bounded stCW3 []).edgeStep true true ≠ 0 ∧
    ∃ t, exec (.edge true true) (sample 6 0 5 false .bounded stCW1 []) = .next t :=
  ⟨fun h => absurd h.2 (by decide), by decide, by decide, _, rfl⟩

theorem witness_FlooredModulo : (1 : Int) ≤ 6 ∧ (0 : Int) ≤ 5 ∧ (5 : Int) < 6 ∧ (6 : Int) ∣ -1 - 5 := by
  decide
theorem witness_ClampWithinBounds : (0 : Int) ≤ 5 ∧ (-1 : Int) < 0 ∧ (5 : Int) < 6 := by decide
theorem witness_ClampWithinBounds_inverted : (4 : Int) < 5 := by decide
theorem witness_WrapLaws :
    (0 : Int) ≤ 5 ∧ (0 : Int) ≤ 4 ∧ (4 : Int) < 5 ∧ (0 : Int) < 1 ∧ (7 : Int) = 7 ∧ [(1 : Int), -1] ≠ [] := by
  decide
theorem witness_BoundedLaws : (0 : Int) < 5 ∧ (0 : Int) ≤ 4 ∧ (4 : Int) < 5 ∧ (7 : Int) ≤ 7 := by decide
theorem witness_StepUnchangedCases : ((1 : Int) = 1 ∨ (1 : Int) = -1) ∧ (0 : Int) ≤ 5 ∧
    applyStep 5 1 .bounded 0 5 = some 5 ∧ applyStep 0 (-1) .bounded 0 5 = some 0 ∧
    applyStep 7 1 .wrap 7 7 = some 7 := by decide
theorem witness_InRangeFormsAgree : ((-1 : Int) = 1 ∨ (-1 : Int) = -1) ∧ (0 : Int) ≤ 0 ∧ (0 : Int) ≤ 5 := by
  decide
theorem witness_OutOfRangeValueJumps :
    ((1 : Int) = 1 ∨ (1 : Int) = -1) ∧ (5 : Int) ≤ 10 ∧ (4 : Int) < 5 ∧ (10 : Int) < 11 := by decide

theorem witness_ReconfReplacesNamedFields :
    ((true = true → (3#2 : ModeBits) ≠ 0#2)) ∧
    (presented reconfStart 0#16).minVal ≤ (presented reconfStart 0#16).maxVal := by decide
/-- All five fields named, with the buses of `presented` accepted: bounds 1 and 4. -/
theorem witness_ReconfReplacesNamedFields_all :
    State.busMin { reconfStart with bus := ⟨2, 1, 4, 6⟩ } ≤
      State.busMax { reconfStart with bus := ⟨2, 1, 4, 6⟩ } := by decide
/-- The buses of an instance with `W = 4` at both ends of the range, and one step beyond each (log entry 6). -/
theorem witness_BusesRead :
    (State.busMin { reconfStart with cfg := ⟨some 4, none⟩, bus := ⟨0, -8, 7, 0⟩ } = -8 ∧
      State.busMax { reconfStart with cfg := ⟨some 4, none⟩, bus := ⟨0, -8, 7, 0⟩ } = 7) ∧
    (State.busMin { reconfStart with cfg := ⟨some 4, none⟩, bus := ⟨0, -9, 8, 0⟩ } = 7 ∧
      State.busMax { reconfStart with cfg := ⟨some 4, none⟩, bus := ⟨0, -9, 8, 0⟩ } = -8) ∧
    State.busValue { reconfStart with bus := ⟨99, 1, 2, 0⟩ } = 99 := by decide
theorem witness_ReconfChecks_mode : (true = true ∧ (0#2 : ModeBits) = 0#2) := by decide
/-- V-RECONF C8: `min = 6` above the kept 5; C7: `min = 5` is accepted. -/
theorem witness_ReconfChecks_bounds :
    reconfStart.maxVal < State.busMin { reconfStart with bus := ⟨0, 6, 0, 0⟩ } ∧
    ¬ (reconfStart.maxVal < State.busMin { reconfStart with bus := ⟨0, 5, 0, 0⟩ }) := by decide
theorem witness_EmptyReconfOnlyRestarts : reconfStart.minVal ≤ reconfStart.maxVal := by decide
theorem witness_OtherOperationsFrame :
    (∀ clk dt, Instr.rdval ≠ .edge clk dt) ∧ (∀ clk dt, Instr.rstval ≠ .edge clk dt) ∧
    (∀ clk dt, Instr.addl ≠ .edge clk dt) ∧ (∃ t, exec .rdval reconfStart = .next t) ∧
    (∃ t, exec .rstval reconfStart = .next t) ∧ (∃ t, exec .addl reconfStart = .next t) :=
  ⟨by decide, by decide, by decide, ⟨_, rfl⟩, ⟨_, rfl⟩, _, rfl⟩
theorem witness_OtherOperationsFrame_reconf :
    (∀ clk dt, Instr.reconf false true false false false true 0#2 ≠ .edge clk dt) ∧
    ∃ t, exec (.reconf false true false false false true 0#2) reconfStart = .next t := ⟨by decide, _, rfl⟩
theorem witness_RdvalReadsValue : (walking [.done]).busy = true := rfl
theorem witness_RstvalStoresZero :
    (0 < (sample 7 1 10 false .bounded stSTART []).minVal) ∧
    ((sample (-8) (-10) (-1) false .wrap stSTART []).maxVal < 0) ∧
    ∃ t, exec .rstval (sample 7 1 10 false .bounded stSTART []) = .next t := ⟨by decide, by decide, _, rfl⟩
/-- Two entries: `NL = 3` has room for one more, `NL = 2` is full, and unbounded always has room. -/
theorem witness_AddlAppendsOrFindsTableFull :
    (sample 0 0 5 false .wrap stSTART [0, 1]).lcount < 3 ∧
    (sample 0 0 5 false .wrap stSTART [0, 1]).lcount = 2 ∧
    (sample 0 0 5 false .wrap stSTART [0, 1]).cfg.nl = none := by decide
theorem witness_ListenerTableOnlyGrows :
    (nextOf (step (presented reconfStart 0xA000#16))).map (fun t => t.lt) = some [0, 6] := by decide
/-- A step that changes `max_val` (to the bus's 4), by a RECONF that names it. -/
theorem witness_OnlyReconfChangesConfiguration :
    (nextOf (step (presented reconfStart 0x6400#16))).map (fun t => t.maxVal) = some 4 ∧
    reconfStart.maxVal = 5 := by decide

theorem witness_AnsweredListenerMovesWalkOn :
    (walking [.done]).busy = true ∧ (walking [.done]).lt[(walking [.done]).dispIdx]? = some 8 ∧
    (walking [.done]).dispIdx + 1 < (walking [.done]).lcount := by decide
theorem witness_AnsweredListenerMovesWalkOn_last :
    State.lcount { walking [.done] with dispIdx := 2 } = 2 + 1 ∧
    ({ walking [.done] with dispIdx := 2 } : State).lt[2]? = some 9 := by decide
theorem witness_ListenerFaultEndsWalk :
    (walking [.fault]).busy = true ∧ (walking [.fault]).lt[(walking [.fault]).dispIdx]? = some 8 ∧
    (walking [.fault]).answers = [.fault] := by decide
theorem witness_UnansweredListenerHoldsBlock :
    (walking []).busy = true ∧ (walking []).lt[(walking []).dispIdx]? = some 8 ∧ (walking []).answers = [] := by
  decide

/-- An EDGE that wraps 5 to 0, with three listeners of which the second faults (V-NOTIFY L6). -/
def bigStart : State :=
  { presented (sample 5 0 5 false .wrap stCW3 [7, 8, 9]) 0x2003#16 with
    answers := [.done, .fault, .done, .done] }
def bigAnswers : Nat → Answer := fun i => if i = 1 then .fault else .done
theorem witness_EdgeAndDispatchAreOneBigStep :
    bigStart.busy = false ∧ bigStart.cmdIn = [⟨0x2003#16, ⟨2, 1, 4, 6⟩⟩] ∧
    decode 0x2003#16 = .ok (.edge true true) ∧ bigStart.edgeStep true true ≠ 0 ∧
    newValue bigStart (bigStart.edgeStep true true) = .ok 0 ∧ (0 : Int) ≠ bigStart.value ∧
    bigStart.answers = walkAnswers bigAnswers (walkLength bigStart.lcount bigAnswers) ++ [.done, .done] := by
  decide
theorem witness_OnlyChangedValueNotifies :
    (sample 5 0 5 false .wrap stCW3 [7]).busy = false ∧
    (nextOf (exec (.edge true true) (sample 5 0 5 false .wrap stCW3 [7]))).map (fun t => t.busy) =
      some true := by decide
theorem witness_ChannelRecordsAreNeverRead :
    ∃ t, step (walking [.fault]) = .next t := ⟨_, rfl⟩
theorem witness_AutomatonHiddenFromOtherOperations :
    (∀ clk dt, Instr.addl ≠ .edge clk dt) ∧ ∃ t, exec .addl reconfStart = .next t := ⟨by decide, _, rfl⟩

end Sys2Proof.Tests
end

section
/-! R14: what `fmod` is, in terms of divisibility. -/

namespace Sys2Proof.Machine

/-- `fmod` takes a multiple of `n` off its argument. -/
theorem dvd_sub_fmod (a n : Int) : n ∣ a - fmod a n := Int.dvd_self_sub_emod

/-- A number in `0..n-1` that differs from `a` by a multiple of `n` is its own residue, hence that of `a`. -/
theorem eq_fmod_of_dvd_sub {a n r : Int} (h0 : 0 ≤ r) (hlt : r < n) (hdvd : n ∣ a - r) : r = fmod a n :=
  calc r = r % n := (Int.emod_eq_of_lt h0 hlt).symm
    _ = fmod a n := Int.modEq_iff_dvd.mpr hdvd

/-- Settles O36: the range lemmas of `fmod`, and existence and uniqueness by divisibility. -/
theorem flooredModulo : Obligations.FlooredModulo := by
  refine ⟨fun a n hn => ⟨⟨fmod_nonneg a hn, fmod_lt a hn, dvd_sub_fmod a n⟩, ?_⟩, ?examples⟩
  · exact fun r h0 hlt hdvd => eq_fmod_of_dvd_sub h0 hlt hdvd
  case examples => decide

end Sys2Proof.Machine
end

section
/-! R34, R210: which parameters have an instance, and the registers it starts with. -/

namespace Sys2Proof.Machine

/-- Reading a numeral inverts `RangeMode.numeral` (R76). -/
theorem ofNumeral_eq_some_iff {b : ModeBits} {m : RangeMode} :
    RangeMode.ofNumeral b = some m ↔ m.numeral = b := by
  cases m <;> decide +revert

/-- Of the four numerals only 0 names no mode (R76). -/
theorem exists_numeral_eq {b : ModeBits} (h0 : b ≠ 0#2) : ∃ m : RangeMode, m.numeral = b := by
  have hb : b = 1#2 ∨ b = 2#2 ∨ b = 3#2 := by decide +revert
  obtain rfl | rfl | rfl := hb
  · exact ⟨.unbounded, rfl⟩
  · exact ⟨.wrap, rfl⟩
  · exact ⟨.bounded, rfl⟩

/-- The checks of R11 and R187, one by one. -/
theorem initParams_legal_iff {c : Config} {p : InitParams} :
    p.legal c = true ↔ p.minInit ≤ p.maxInit ∧ fitsWidth c.width p.minInit = true ∧
      fitsWidth c.width p.maxInit = true ∧ p.modeInit ≠ 0#2 := by
  simp [InitParams.legal, and_assoc]

/-- Construction gives an instance of the mode `MODE_INIT` names, and does so for legal parameters only. -/
theorem construct_eq_some_iff {c : Config} {p : InitParams} {s : State} :
    construct c p = some s ↔
      c.legal = true ∧ p.legal c = true ∧ ∃ m : RangeMode, m.numeral = p.modeInit ∧ launch c p m = s := by
  simp only [← ofNumeral_eq_some_iff]
  cases hm : RangeMode.ofNumeral p.modeInit with
  | none => simp [construct, hm]
  | some m => simp [construct, hm, and_assoc]

/-- Settles O1: legality leaves `MODE_INIT` a mode to name, and `launch` loads the registers. -/
theorem constructionLoadsParameters : Obligations.ConstructionLoadsParameters := by
  intro c p hc hp
  obtain ⟨-, -, -, hmode⟩ := initParams_legal_iff.mp hp
  obtain ⟨m, hm⟩ := exists_numeral_eq hmode
  have hlaunch : construct c p = some (launch c p m) := construct_eq_some_iff.mpr ⟨hc, hp, m, hm, rfl⟩
  exact ⟨launch c p m, hlaunch, rfl, rfl, rfl, hm, rfl, rfl, rfl, rfl, rfl⟩

end Sys2Proof.Machine
end

section
/-! R76, R87: the numerals of the range modes and the codes of the statuses. -/

namespace Sys2Proof.Machine

/-- A mode's own numeral is read back as that mode (R76). -/
@[simp] theorem ofNumeral_numeral (m : RangeMode) : RangeMode.ofNumeral m.numeral = some m :=
  ofNumeral_eq_some_iff.mpr rfl

/-- The codes above 4 are reserved (R87, U14). -/
theorem status_code_le_four (st : Status) : st.code ≤ 4#3 := by
  cases st <;> decide

theorem status_code_ne_of_four_lt (st : Status) {b : BitVec 3} (hb : 4#3 < b) : st.code ≠ b :=
  fun h => BitVec.not_lt.mpr (h ▸ status_code_le_four st) hb

/-- Settles O12: the numerals 1 to 3 are those of the modes, and no status code exceeds 4. -/
theorem modeNumeralsAndStatusCodes : Obligations.ModeNumeralsAndStatusCodes := by
  refine ⟨⟨rfl, ofNumeral_numeral .unbounded, ofNumeral_numeral .wrap, ofNumeral_numeral .bounded,
    ofNumeral_numeral⟩, rfl, rfl, rfl, rfl, rfl, fun st => ⟨?_, ?_, ?_⟩⟩ <;>
  exact status_code_ne_of_four_lt st (by decide)

end Sys2Proof.Machine
end

section
/-! R79: what `memRead` reads is the list `rom`, so that a fact about all entries is a fact about its
members. -/

namespace Sys2Proof.Machine

/-- Reading all addresses in order gives the table (R79). -/
theorem map_memRead_finRange : (List.finRange 32).map memRead = rom := List.map_get_finRange rom

/-- The bytes that can be read are those of the table. -/
theorem exists_memRead_eq_iff {b : TableByte} : (∃ a, memRead a = b) ↔ b ∈ rom := by
  simp [← map_memRead_finRange]

theorem memRead_mem_rom (a : Fin 32) : memRead a ∈ rom := exists_memRead_eq_iff.mp ⟨a, rfl⟩

/-- The nine distinct bytes of the table (R79). -/
theorem mem_rom_iff {b : TableByte} :
    b ∈ rom ↔ b ∈ [0x00#8, 0x01#8, 0x02#8, 0x03#8, 0x04#8, 0x05#8, 0x06#8, 0x10#8, 0x20#8] := by
  constructor <;> decide +revert

/-- The flag CW stands in one entry alone: CW_3 under code 11 (R72, R79). -/
theorem memRead_eq_dirCW_iff (a : Fin 32) : memRead a = dirCW ↔ a = 15 := by decide +revert

/-- The flag CCW stands in one entry alone: CCW_3 under code 11 (R72, R79). -/
theorem memRead_eq_dirCCW_iff (a : Fin 32) : memRead a = dirCCW ↔ a = 27 := by decide +revert

/-- No entry leads to ILLEGAL (R79, R108). -/
theorem nextOfEntry_ne_stILLEGAL_of_mem : ∀ b ∈ rom, nextOfEntry b ≠ stILLEGAL := by decide

/-- Every state but ILLEGAL is the next state of some entry (R79, R108). -/
theorem exists_nextOfEntry_memRead_eq {f : FsmState} (hf : f ≠ stILLEGAL) :
    ∃ a, nextOfEntry (memRead a) = f := by
  have hmem : f ∈ rom.map nextOfEntry := by decide +revert
  obtain ⟨b, hb, rfl⟩ := List.mem_map.mp hmem
  obtain ⟨a, rfl⟩ := exists_memRead_eq_iff.mpr hb
  exact ⟨a, rfl⟩

/-- Settles O17: each part is read off the list `rom`, the flag addresses off the 32 addresses. -/
theorem transitionTableBytes : Obligations.TransitionTableBytes := by
  have hnext : ∀ f ∈ [stSTART, stCW1, stCW2, stCW3, stCCW1, stCCW2, stCCW3], f ≠ stILLEGAL := by decide
  refine ⟨map_memRead_finRange, map_memRead_finRange.trans ?symbolic,
    fun a => mem_rom_iff.mp (memRead_mem_rom a), fun b hb => exists_memRead_eq_iff.mpr (mem_rom_iff.mpr hb),
    memRead_eq_dirCW_iff, memRead_eq_dirCCW_iff,
    fun a => nextOfEntry_ne_stILLEGAL_of_mem _ (memRead_mem_rom a),
    fun f hf => exists_nextOfEntry_memRead_eq (hnext f hf)⟩
  case symbolic => rfl

end Sys2Proof.Machine
end

section
/-! R70, R74: the code an EDGE reads with, and the step a direction stands for. -/

namespace Sys2Proof.Machine

/-- The code is the two levels side by side, `clk` first (R70). -/
theorem codeOf_eq_append (clk dt : Bool) : codeOf clk dt = BitVec.ofBool clk ++ BitVec.ofBool dt := by
  cases clk <;> cases dt <;> rfl

@[simp] theorem codeOf_getLsbD_one (clk dt : Bool) : (codeOf clk dt).getLsbD 1 = clk := by
  rw [codeOf_eq_append, BitVec.getLsbD_append]
  simp

@[simp] theorem codeOf_getLsbD_zero (clk dt : Bool) : (codeOf clk dt).getLsbD 0 = dt := by
  rw [codeOf_eq_append, BitVec.getLsbD_append]
  simp

theorem codeOf_toNat (clk dt : Bool) : (codeOf clk dt).toNat = 2 * clk.toNat + dt.toNat := by
  have hdt : dt.toNat < 2 ^ 1 := Bool.toNat_lt dt
  calc (codeOf clk dt).toNat
      = clk.toNat <<< 1 ||| dt.toNat := by
        rw [codeOf_eq_append, BitVec.toNat_append, BitVec.toNat_ofBool, BitVec.toNat_ofBool]
    _ = clk.toNat <<< 1 + dt.toNat := (Nat.shiftLeft_add_eq_or_of_lt hdt _).symm
    _ = 2 * clk.toNat + dt.toNat := by rw [Nat.shiftLeft_eq, pow_one, Nat.mul_comm]

/-- Settles O26: both bits and the number of two bits set side by side. -/
theorem codeOfLevels : Obligations.CodeOfLevels := fun clk dt =>
  ⟨codeOf_getLsbD_one clk dt, codeOf_getLsbD_zero clk dt, codeOf_toNat clk dt⟩

@[simp] theorem stepOfDirection_dirCW : stepOfDirection dirCW = 1 := if_pos rfl

@[simp] theorem stepOfDirection_dirCCW : stepOfDirection dirCCW = -1 :=
  (if_neg (by decide)).trans (if_pos rfl)

/-- Any value but the two flags is no step, 0x30 among them (R74). -/
theorem stepOfDirection_of_ne {d : TableByte} (hcw : d ≠ dirCW) (hccw : d ≠ dirCCW) :
    stepOfDirection d = 0 := (if_neg hcw).trans (if_neg hccw)

/-- Settles O27: one case per branch of `stepOfDirection`. -/
theorem directionGivesStep : Obligations.DirectionGivesStep :=
  ⟨stepOfDirection_dirCW, stepOfDirection_dirCCW, fun _ hcw hccw => stepOfDirection_of_ne hcw hccw⟩

end Sys2Proof.Machine
end

section
/-! R107, R108: the automaton case by case, and the states it can be in. -/

namespace Sys2Proof.Machine

/-- The automaton emits in the two cases that end a detent, and in no other (R107). -/
theorem fsmEmits_eq (f : FsmState) (c : Code) :
    fsmEmits f c = if f = stCW3 ∧ c = 0b11#2 then dirCW
      else if f = stCCW3 ∧ c = 0b11#2 then dirCCW else 0#8 := by
  decide +revert

/-- Settles O18: the rows of the next-state table, and the two cases that emit. -/
theorem nextStateTable : Obligations.NextStateTable := ⟨by decide, fsmEmits_eq⟩

/-- A code that emits brings the automaton back to START. -/
theorem fsmNext_eq_stSTART_of_fsmEmits_ne_zero {f : FsmState} {c : Code} (h : fsmEmits f c ≠ 0#8) :
    fsmNext f c = stSTART := by
  rw [fsmEmits_eq] at h
  split at h
  case isTrue hcw =>
    obtain ⟨rfl, rfl⟩ := hcw
    rfl
  case isFalse =>
    split at h
    case isTrue hccw =>
      obtain ⟨rfl, rfl⟩ := hccw
      rfl
    case isFalse => exact absurd rfl h

/-- ILLEGAL has no predecessor (R108). -/
theorem fsmNext_ne_stILLEGAL (f : FsmState) (c : Code) : fsmNext f c ≠ stILLEGAL :=
  nextOfEntry_ne_stILLEGAL_of_mem _ (memRead_mem_rom _)

theorem fsmAfter_ne_stILLEGAL {f : FsmState} (hf : f ≠ stILLEGAL) (codes : List Code) :
    fsmAfter f codes ≠ stILLEGAL := by
  induction codes generalizing f with
  | nil => exact hf
  | cons c cs ih => exact ih (fsmNext_ne_stILLEGAL f c)

/-- The states other than ILLEGAL, one by one (R71). -/
theorem eq_of_ne_stILLEGAL {f : FsmState} (hf : f ≠ stILLEGAL) :
    f = stSTART ∨ f = stCW1 ∨ f = stCW2 ∨ f = stCW3 ∨ f = stCCW1 ∨ f = stCCW2 ∨ f = stCCW3 := by
  decide +revert

/-- The beginnings of the two detents (R109, R110) lead to every state but ILLEGAL. -/
theorem exists_fsmAfter_stSTART_eq {f : FsmState} (hf : f ≠ stILLEGAL) :
    ∃ codes, fsmAfter stSTART codes = f := by
  obtain rfl | rfl | rfl | rfl | rfl | rfl | rfl := eq_of_ne_stILLEGAL hf
  · exact ⟨[], rfl⟩
  · exact ⟨[0b10#2], rfl⟩
  · exact ⟨[0b10#2, 0b00#2], rfl⟩
  · exact ⟨[0b10#2, 0b00#2, 0b01#2], rfl⟩
  · exact ⟨[0b01#2], rfl⟩
  · exact ⟨[0b01#2, 0b00#2], rfl⟩
  · exact ⟨[0b01#2, 0b00#2, 0b10#2], rfl⟩

/-- Settles O19: no entry leads to ILLEGAL, and the beginnings of the detents reach every other state. -/
theorem tableClosure : Obligations.TableClosure := by
  refine ⟨fsmNext_ne_stILLEGAL, fun f => ⟨?_, exists_fsmAfter_stSTART_eq⟩⟩
  rintro ⟨codes, rfl⟩
  exact fsmAfter_ne_stILLEGAL (by decide) codes

end Sys2Proof.Machine
end

section
/-! R109, R110, R112: what the automaton emits along a sequence of codes. -/

namespace Sys2Proof.Machine

@[simp] theorem stepOfDirection_zero : stepOfDirection 0#8 = 0 :=
  stepOfDirection_of_ne (by decide) (by decide)

/-- Three EDGEs that emit nothing and a fourth that emits `d` make the step of `d`, on the fourth. -/
theorem map_step_of_fourth (d : TableByte) (rev : Bool) :
    [0#8, 0#8, 0#8, d].map (fun e => stepOfDirection e * dsign rev) =
      [0, 0, 0, stepOfDirection d * dsign rev] := by
  simp

theorem fsmEmissions_clockwise :
    fsmEmissions stSTART [0b10#2, 0b00#2, 0b01#2, 0b11#2] = [0#8, 0#8, 0#8, dirCW] := by decide

theorem fsmEmissions_counterClockwise :
    fsmEmissions stSTART [0b01#2, 0b00#2, 0b10#2, 0b11#2] = [0#8, 0#8, 0#8, dirCCW] := by decide

/-- Settles O20: the paths through the table; the steps are those of the directions emitted. -/
theorem clockwiseDetentCodes : Obligations.ClockwiseDetentCodes := by
  refine ⟨by decide, fsmEmissions_clockwise, fun rev => ?steps, by decide, by decide⟩
  case steps => rw [fsmEmissions_clockwise, map_step_of_fourth, stepOfDirection_dirCW]

/-- Settles O21: the path through the table; the steps are those of the directions emitted. -/
theorem counterClockwiseDetentCodes : Obligations.CounterClockwiseDetentCodes := by
  refine ⟨by decide, fsmEmissions_counterClockwise, fun rev => ?steps⟩
  case steps => rw [fsmEmissions_counterClockwise, map_step_of_fourth, stepOfDirection_dirCCW]

theorem fsmEmissions_append (f : FsmState) (as bs : List Code) :
    fsmEmissions f (as ++ bs) = fsmEmissions f as ++ fsmEmissions (fsmAfter f as) bs := by
  induction as generalizing f with
  | nil => rfl
  | cons a as ih => exact congrArg (fsmEmits f a :: ·) (ih (fsmNext f a))

/-- Away from START nothing is emitted, since whatever emits goes to START. -/
theorem fsmEmissions_eq_zero_of_stSTART_notMem {f : FsmState} {codes : List Code}
    (h : stSTART ∉ fsmVisits f codes) : ∀ d ∈ fsmEmissions f codes, d = 0#8 := by
  induction codes generalizing f with
  | nil => simp [fsmEmissions]
  | cons c cs ih =>
    rw [fsmVisits, List.mem_cons, not_or] at h
    obtain ⟨hc, hcs⟩ := h
    have hzero : fsmEmits f c = 0#8 :=
      not_ne_iff.mp fun he => hc (fsmNext_eq_stSTART_of_fsmEmits_ne_zero he).symm
    exact List.forall_mem_cons.mpr ⟨hzero, ih hcs⟩

/-- The eight back-off cases of R112: a state on a path and a code that leaves the path for START. -/
def backOffCases : List (FsmState × Code) :=
  [(stCW1, 0b01#2), (stCW1, 0b11#2), (stCW2, 0b11#2), (stCW3, 0b10#2),
   (stCCW1, 0b10#2), (stCCW1, 0b11#2), (stCCW2, 0b11#2), (stCCW3, 0b01#2)]

theorem backOff_to_stSTART_silently :
    ∀ x ∈ backOffCases, fsmNext x.1 x.2 = stSTART ∧ fsmEmits x.1 x.2 = 0#8 := by decide

/-- Settles O23: nothing is emitted before the last code, and the last code is a back-off. -/
theorem backOffYieldsNoStep : Obligations.BackOffYieldsNoStep := by
  refine ⟨backOff_to_stSTART_silently, fun codes last hpath hlast d hd => ?_⟩
  obtain ⟨-, hsilent⟩ := backOff_to_stSTART_silently (fsmAfter stSTART codes, last) hlast
  rw [fsmEmissions_append, List.mem_append] at hd
  obtain hd | hd := hd
  · exact fsmEmissions_eq_zero_of_stSTART_notMem hpath d hd
  · exact (List.mem_singleton.mp hd).trans hsilent

end Sys2Proof.Machine
end

section
/-! R103, R105, R106: what EDGE stores in `fsm_state`, and an EDGE without a step. -/

namespace Sys2Proof.Machine

/-- EDGE stores the next state first and resolves the step then (R100). -/
theorem exec_edge (clk dt : Bool) (s : State) :
    exec (.edge clk dt) s = resolveStep (s.commitFsm (s.edgeNext clk dt)) (s.edgeStep clk dt) := rfl

/-- The step and the range policy leave the stored `fsm_state` alone. -/
theorem resolveStep_fsmState {s t : State} {st : Int} (h : resolveStep s st = .next t) :
    t.fsmState = s.fsmState := by
  obtain ⟨-, rfl⟩ | ⟨-, new, -, rfl⟩ := resolveStep_cases h
  · exact respond_fsmState ..
  · exact storeAndNotify_fsmState ..

theorem exec_edge_fsmState {clk dt : Bool} {s t : State} (h : exec (.edge clk dt) s = .next t) :
    t.fsmState = s.edgeNext clk dt := by
  rw [exec_edge] at h
  exact resolveStep_fsmState h

@[simp] theorem dsign_false : dsign false = 1 := rfl
@[simp] theorem dsign_true : dsign true = -1 := rfl

theorem resolvedStep_false (e : TableByte) : resolvedStep false e = stepOfDirection (directionOf e) :=
  Int.mul_one _

theorem resolvedStep_true (e : TableByte) : resolvedStep true e = -resolvedStep false e := by
  rw [resolvedStep_false]
  exact Int.mul_neg_one _

/-- The next state does not depend on `rev` (R105). -/
theorem edgeNext_with_rev (s : State) (r : Bool) (clk dt : Bool) :
    { s with rev := r }.edgeNext clk dt = s.edgeNext clk dt := rfl

/-- Settles O28: `dsign` negates the step, and `edgeNext` does not read `rev`. -/
theorem reverseInvertsStep : Obligations.ReverseInvertsStep := by
  refine ⟨fun e => ⟨resolvedStep_false e, resolvedStep_true e⟩, fun clk dt s t u ht hu => ?samePath⟩
  case samePath =>
    calc t.fsmState
        = s.edgeNext clk dt := (exec_edge_fsmState ht).trans (edgeNext_with_rev s false clk dt)
      _ = u.fsmState := ((exec_edge_fsmState hu).trans (edgeNext_with_rev s true clk dt)).symm

/-- Settles O29: without a step EDGE only responds after it has stored the next state. -/
theorem edgeWithoutStepMovesOnlyAutomaton : Obligations.EdgeWithoutStepMovesOnlyAutomaton := by
  intro clk dt s h0
  rw [exec_edge, h0, resolveStep_zero]
  rfl

/-- The address read is `4 * fsm_state + code` (R51, R102). -/
theorem eq_romAddr_iff {a : Fin 32} {f : FsmState} {c : Code} :
    a = romAddr f c ↔ a.val = 4 * f.toNat + c.toNat := by
  rw [Fin.ext_iff, romAddr_unmasked]

/-- Settles O30: the stored next state is that of the entry at the address read. -/
theorem edgeStoresMaskedEntry : Obligations.EdgeStoresMaskedEntry := by
  intro clk dt s t a ha ht
  obtain rfl := eq_romAddr_iff.mpr ha
  exact exec_edge_fsmState ht

end Sys2Proof.Machine
end

section
/-! R120 to R123, R133: what EDGE does with a non-zero step, mode by mode. -/

namespace Sys2Proof.Machine

/-! ### The result that is stored -/

/-- The width test is R8's range, where `W` is finite. -/
theorem fitsWidth_iff_inWidth {w : Option Nat} {x : Int} :
    fitsWidth w x = true ↔ ∀ n, w = some n → InWidth n x := by
  cases w with
  | none => simp [fitsWidth]
  | some n => simp [fitsWidth, InWidth]

/-- UNBOUNDED looks at no bounds; only a finite `W` limits the result (R121, R133). -/
theorem newValue_unbounded {s : State} {st : Int} (hm : s.rangeMode = .unbounded)
    (hfits : ∀ w, s.cfg.width = some w → InWidth w (s.value + st)) :
    newValue s st = .ok (s.value + st) := by
  refine newValue_ok_iff.mpr ⟨?_, fitsWidth_iff_inWidth.mpr hfits⟩
  rw [hm]
  rfl

/-- A result of the policy between the two stored bounds fits `W` as they do (R133). -/
theorem newValue_of_between {s : State} {st v : Int} (hs : s.Inv)
    (happly : applyStep s.value st s.rangeMode s.minVal s.maxVal = some v)
    (hv : s.minVal ≤ v ∧ v ≤ s.maxVal) : newValue s st = .ok v := by
  obtain ⟨hlo, hhi⟩ := hv
  exact newValue_ok_iff.mpr ⟨happly, fitsWidth_between hs.fitsMin hs.fitsMax hlo hhi⟩

theorem newValue_wrap {s : State} (hs : s.Inv) (hm : s.rangeMode = .wrap) (st : Int) :
    newValue s st = .ok (stepWrap s.value st s.minVal s.maxVal) := by
  refine newValue_of_between hs ?_ (stepWrap_range s.value st hs.bounds)
  rw [hm]
  exact if_pos hs.bounds

theorem newValue_bounded {s : State} (hs : s.Inv) (hm : s.rangeMode = .bounded) (st : Int) :
    newValue s st = .ok (stepBounded s.value st s.minVal s.maxVal) := by
  refine newValue_of_between hs ?_ (stepBounded_range s.value st hs.bounds)
  rw [hm]
  exact if_pos hs.bounds

/-! ### The end of an EDGE with a step -/

theorem storeAndNotify_absorbed {s : State} {new : Int} (h : new = s.value) :
    storeAndNotify s new = (s.storeValue new).respond .ok false 0 := by
  obtain ⟨hne, -⟩ | ⟨-, e⟩ := storeAndNotify_cases s new
  · exact absurd h hne
  · exact e

theorem storeAndNotify_changed {s : State} {new : Int} (h : new ≠ s.value) :
    storeAndNotify s new = startNotify (s.storeValue new) := by
  obtain ⟨-, e⟩ | ⟨heq, -⟩ := storeAndNotify_cases s new
  · exact e
  · exact absurd heq h

/-- The four clauses of `EdgeStored`, on the state in which the result is stored. -/
theorem storeAndNotify_edgeStored (s : State) (new : Int) : EdgeStored s (storeAndNotify s new) new where
  stored := storeAndNotify_value s new
  absorbed h := by simp [storeAndNotify_absorbed h]
  nobody h hnil := by
    have hlt : (s.storeValue new).lt = [] := hnil
    simp [storeAndNotify_changed h, startNotify_nobody hlt]
  dispatching h hsome := by
    have hlt : (s.storeValue new).lt ≠ [] := hsome
    simp [storeAndNotify_changed h, startNotify_somebody hlt]

/-- `EdgeStored` does not read the `fsm_state` EDGE starts from. -/
theorem edgeStored_of_commitFsm {s t : State} {f : FsmState} {new : Int}
    (h : EdgeStored (s.commitFsm f) t new) : EdgeStored s t new :=
  ⟨h.stored, h.absorbed, h.nobody, h.dispatching⟩

/-- An EDGE with a step to which the policy gives a result completes, and stores that result (R100). -/
theorem exec_edge_of_newValue {clk dt : Bool} {s : State} {new : Int} (h0 : s.edgeStep clk dt ≠ 0)
    (h : newValue s (s.edgeStep clk dt) = .ok new) :
    ∃ t, exec (.edge clk dt) s = .next t ∧ EdgeStored s t new ∧
      t.fsmState = fsmNext s.fsmState (codeOf clk dt) := by
  have hexec : exec (.edge clk dt) s = .next (storeAndNotify (s.commitFsm (s.edgeNext clk dt)) new) := by
    rw [exec_edge]
    exact resolveStep_ok h0 h
  exact ⟨_, hexec, edgeStored_of_commitFsm (storeAndNotify_edgeStored _ new), exec_edge_fsmState hexec⟩

/-- Settles O31: the sum is the policy's result, and a non-zero step makes it another number. -/
theorem unboundedEdgeAddsStep : Obligations.UnboundedEdgeAddsStep := by
  refine ⟨fun clk dt s hm h0 hfits => ?_, by decide⟩
  obtain ⟨t, hexec, hstored, hfsm⟩ := exec_edge_of_newValue h0 (newValue_unbounded hm hfits)
  have hchange : t.value ≠ s.value := by
    rw [hstored.stored]
    omega
  exact ⟨t, hexec, hstored, hchange, hfsm⟩

/-- Settles O32: the stored result is `stepWrap`'s, which lies between the bounds. -/
theorem wrapEdgeWrapsStep : Obligations.WrapEdgeWrapsStep := by
  refine ⟨fun clk dt s hs hm h0 => ?_, by decide, by decide⟩
  obtain ⟨t, hexec, hstored, hfsm⟩ := exec_edge_of_newValue h0 (newValue_wrap hs hm _)
  obtain ⟨hlo, hhi⟩ := stepWrap_range s.value (s.edgeStep clk dt) hs.bounds
  rw [← hstored.stored] at hlo hhi
  exact ⟨t, hexec, hstored, hlo, hhi, spanOf_pos hs.bounds, hfsm⟩

/-- Settles O33: the stored result is `stepBounded`'s, which lies between the bounds. -/
theorem boundedEdgeClampsStep : Obligations.BoundedEdgeClampsStep := by
  refine ⟨fun clk dt s hs hm h0 => ?_, by decide⟩
  obtain ⟨t, hexec, hstored, hfsm⟩ := exec_edge_of_newValue h0 (newValue_bounded hs hm _)
  obtain ⟨hlo, hhi⟩ := stepBounded_range s.value (s.edgeStep clk dt) hs.bounds
  rw [← hstored.stored] at hlo hhi
  exact ⟨t, hexec, hstored, hlo, hhi, hfsm⟩

end Sys2Proof.Machine
end

section
/-! R141 to R144, R150: the end of a RECONF that passes its checks, and RSTVAL. -/

namespace Sys2Proof.Machine

@[simp] theorem field_false {α : Type} (operand prior : α) : field false operand prior = prior := rfl

/-- `mode` is not examined when it is not named (R142 (1)). -/
@[simp] theorem modeField_false (mode : ModeBits) (prior : RangeMode) :
    modeField false mode prior = some prior := rfl

/-- A RECONF that passes both checks of R142 replaces and restarts (R141, R143). -/
theorem exec_reconf_of_checks {fMode fRev fMax fMin fValue r : Bool} {mode : ModeBits} {s : State}
    {m : RangeMode} (hmode : modeField fMode mode s.rangeMode = some m)
    (hbounds : field fMin s.busMin s.minVal ≤ field fMax s.busMax s.maxVal) :
    exec (.reconf fMode fRev fMax fMin fValue r mode) s =
      .next ((s.reconfigure (field fMin s.busMin s.minVal) (field fMax s.busMax s.maxVal)
        (field fValue s.busValue s.value) (field fRev r s.rev) m).respond .ok false 0) := by
  simp [exec, execReconf, hmode, Int.not_lt.mpr hbounds]

/-- Settles O46: with no field named both checks are met by the registers themselves, and each register
is replaced by its own prior value. -/
theorem emptyReconfOnlyRestarts : Obligations.EmptyReconfOnlyRestarts := by
  refine ⟨by decide, fun r mode s hbounds => ?restart⟩
  case restart =>
    rw [exec_reconf_of_checks (modeField_false mode s.rangeMode) (by simpa using hbounds)]
    rfl

/-- RSTVAL stores 0, and responds (R150). -/
theorem exec_rstval (s : State) : exec .rstval s = .next ((s.storeValue 0).respond .ok false 0) := rfl

/-- What R150 says of the value stored: a positive lower or a negative upper bound leaves 0 out of range. -/
theorem not_inRange_of_value_zero {t : State} (hvalue : t.value = 0) (h : 0 < t.minVal ∨ t.maxVal < 0) :
    ¬ t.InRange := by
  rintro ⟨hlo, hhi⟩
  omega

/-- Settles O49: RSTVAL looks at no bounds, and writes none. -/
theorem rstvalStoresZero : Obligations.RstvalStoresZero := by
  refine fun s => ⟨exec_rstval s, fun t ht hoff => ?outside⟩
  case outside =>
    rw [exec_rstval] at ht
    obtain rfl := Host.Outcome.next.inj ht
    exact not_inRange_of_value_zero rfl hoff

end Sys2Proof.Machine
end

section
/-! R168: how each operation ends, and that only an EDGE which has changed `value` starts a dispatch. -/

namespace Sys2Proof.Machine

/-- The operation that led from `s` to `t` has ended: the block is idle, has invoked nobody and has given
one response, with this `changed`. -/
structure EndedAtOnce (s t : State) (changed : Bool) : Prop where
  idle : t.busy = false
  responded : ∃ r : Response, t.respOut = s.respOut ++ [r] ∧ r.changed = changed
  invoked : t.notifyOut = s.notifyOut

/-- The operation that led from `s` to `t` waits for a listener: no invocation has ended, no response has
been given. -/
structure Dispatching (s t : State) : Prop where
  busy : t.busy = true
  silent : t.respOut = s.respOut
  invoked : t.notifyOut = s.notifyOut

/-- The one response added is the one whose `changed` is asked for. -/
theorem EndedAtOnce.responds_changed_iff {s t : State} {b : Bool} (h : EndedAtOnce s t b) :
    (∃ r : Response, t.respOut = s.respOut ++ [r] ∧ r.changed = true) ↔ b = true := by
  obtain ⟨r, hr, rfl⟩ := h.responded
  simp [hr]

theorem Dispatching.no_response {s t : State} (h : Dispatching s t) (r : Response) :
    t.respOut ≠ s.respOut ++ [r] := by
  simp [h.silent]

/-- Every operation but EDGE ends at once with `changed = 0`, whether it completes or raises a fault
(R145, R151, R160, R162). -/
theorem exec_endedAtOnce_of_ne_edge {i : Instr} {s t : State} (hi : ∀ clk dt, i ≠ .edge clk dt)
    (hidle : s.busy = false) (h : exec i s = .next t) : EndedAtOnce s t false := by
  cases i with
  | edge clk dt => exact absurd rfl (hi clk dt)
  | rdval =>
    obtain rfl := Host.Outcome.next.inj h
    exact ⟨hidle, ⟨_, rfl, rfl⟩, rfl⟩
  | reconf fMode fRev fMax fMin fValue r mode =>
    obtain rfl | ⟨m, -, -, rfl⟩ := execReconf_cases h <;> exact ⟨hidle, ⟨_, rfl, rfl⟩, rfl⟩
  | rstval =>
    obtain rfl := Host.Outcome.next.inj h
    exact ⟨hidle, ⟨_, rfl, rfl⟩, rfl⟩
  | addl =>
    obtain ⟨-, rfl⟩ | ⟨-, rfl⟩ := execAddl_cases h <;> exact ⟨hidle, ⟨_, rfl, rfl⟩, rfl⟩

/-- The three endings of the store of a result: absorbed, changed with nobody to tell, changed with a
dispatch to follow (R125, R168, R171). -/
theorem storeAndNotify_endings {s : State} (hidle : s.busy = false) (new : Int) :
    (new = s.value ∧ EndedAtOnce s (storeAndNotify s new) false) ∨
    (new ≠ s.value ∧ s.lt = [] ∧ EndedAtOnce s (storeAndNotify s new) true) ∨
    (new ≠ s.value ∧ s.lt ≠ [] ∧ Dispatching s (storeAndNotify s new)) := by
  have hstored := storeAndNotify_edgeStored s new
  have hinv := storeAndNotify_notifyOut s new
  by_cases hnew : new = s.value
  · obtain ⟨hbusy, -, hresp⟩ := hstored.absorbed hnew
    exact .inl ⟨hnew, hbusy.trans hidle, ⟨_, hresp, rfl⟩, hinv⟩
  · by_cases hlt : s.lt = []
    · obtain ⟨hbusy, hresp⟩ := hstored.nobody hnew hlt
      exact .inr (.inl ⟨hnew, hlt, hbusy, ⟨_, hresp, rfl⟩, hinv⟩)
    · obtain ⟨hbusy, -, hresp⟩ := hstored.dispatching hnew hlt
      exact .inr (.inr ⟨hnew, hlt, hbusy, hresp, hinv⟩)

/-- The three endings of an EDGE. -/
theorem exec_edge_endings {clk dt : Bool} {s t : State} (hidle : s.busy = false)
    (h : exec (.edge clk dt) s = .next t) :
    (t.value = s.value ∧ EndedAtOnce s t false) ∨
    (t.value ≠ s.value ∧ s.lt = [] ∧ EndedAtOnce s t true) ∨
    (t.value ≠ s.value ∧ s.lt ≠ [] ∧ Dispatching s t) := by
  rw [exec_edge] at h
  obtain ⟨-, rfl⟩ | ⟨-, new, -, rfl⟩ := resolveStep_cases h
  · exact .inl ⟨rfl, ⟨hidle, ⟨_, rfl, rfl⟩, rfl⟩⟩
  · rw [storeAndNotify_value]
    obtain ⟨hnew, hend⟩ | ⟨hnew, hlt, hend⟩ | ⟨hnew, hlt, hwait⟩ :=
      storeAndNotify_endings (s := s.commitFsm (s.edgeNext clk dt)) hidle new
    · exact .inl ⟨hnew, hend.idle, hend.responded, hend.invoked⟩
    · exact .inr (.inl ⟨hnew, hlt, hend.idle, hend.responded, hend.invoked⟩)
    · exact .inr (.inr ⟨hnew, hlt, hwait.busy, hwait.silent, hwait.invoked⟩)

/-- `i`, which led from `s` to `t`, is an EDGE that has changed `value` (R168). -/
def EdgeChangedValue (i : Instr) (s t : State) : Prop := (∃ clk dt, i = .edge clk dt) ∧ t.value ≠ s.value

/-- The three endings of any operation: the last two are those of an EDGE that has changed `value`. -/
theorem exec_endings {i : Instr} {s t : State} (hidle : s.busy = false) (h : exec i s = .next t) :
    (¬ EdgeChangedValue i s t ∧ EndedAtOnce s t false) ∨
    (EdgeChangedValue i s t ∧ s.lt = [] ∧ EndedAtOnce s t true) ∨
    (EdgeChangedValue i s t ∧ s.lt ≠ [] ∧ Dispatching s t) := by
  by_cases hi : ∃ clk dt, i = .edge clk dt
  · obtain ⟨clk, dt, rfl⟩ := hi
    obtain ⟨hv, hend⟩ | ⟨hv, hlt, hend⟩ | ⟨hv, hlt, hwait⟩ := exec_edge_endings hidle h
    · exact .inl ⟨fun ⟨_, hne⟩ => hne hv, hend⟩
    · exact .inr (.inl ⟨⟨⟨clk, dt, rfl⟩, hv⟩, hlt, hend⟩)
    · exact .inr (.inr ⟨⟨⟨clk, dt, rfl⟩, hv⟩, hlt, hwait⟩)
  · have hne : ∀ clk dt, i ≠ .edge clk dt := fun clk dt he => hi ⟨clk, dt, he⟩
    exact .inl ⟨fun ⟨hedge, _⟩ => hi hedge, exec_endedAtOnce_of_ne_edge hne hidle h⟩

/-- A new instance is idle and has invoked nobody (R34). -/
theorem construct_quiet {c : Config} {p : InitParams} {s : State} (h : construct c p = some s) :
    s.busy = false ∧ s.notifyOut = [] := by
  obtain ⟨-, -, m, -, rfl⟩ := construct_eq_some_iff.mp h
  exact ⟨rfl, rfl⟩

/-- Settles O57: in each of the three endings of an operation both equivalences can be read off. -/
theorem onlyChangedValueNotifies : Obligations.OnlyChangedValueNotifies := by
  refine ⟨fun i s t hidle h => ?_, fun c p s hs => construct_quiet hs⟩
  obtain ⟨hnot, hend⟩ | ⟨⟨hi, hv⟩, hlt, hend⟩ | ⟨⟨hi, hv⟩, hlt, hwait⟩ := exec_endings hidle h
  · exact ⟨iff_of_false (ne_true_of_eq_false hend.idle) fun ⟨hi, hv, _⟩ => hnot ⟨hi, hv⟩,
      iff_of_false (mt hend.responds_changed_iff.mp Bool.false_ne_true) fun ⟨hi, hv, _⟩ => hnot ⟨hi, hv⟩,
      hend.invoked⟩
  · exact ⟨iff_of_false (ne_true_of_eq_false hend.idle) fun ⟨_, _, hsome⟩ => hsome hlt,
      iff_of_true (hend.responds_changed_iff.mpr rfl) ⟨hi, hv, hlt⟩, hend.invoked⟩
  · exact ⟨iff_of_true hwait.busy ⟨hi, hv, hlt⟩,
      iff_of_false (fun ⟨r, hr, _⟩ => hwait.no_response r hr) fun ⟨_, _, hnil⟩ => hlt hnil, hwait.invoked⟩

end Sys2Proof.Machine
end

section
/-! R160, R162: ADDL with and without room in the table. -/

namespace Sys2Proof.Machine

/-- The table is full when a finite `NL` is reached (R162). -/
theorem tableFull_iff {s : State} : s.tableFull = true ↔ ∃ n, s.cfg.nl = some n ∧ n ≤ s.lcount := by
  unfold State.tableFull
  cases s.cfg.nl with
  | none => simp
  | some n => simp only [decide_eq_true_eq, Option.some.injEq, exists_eq_left']

theorem exec_addl_of_full {s : State} (h : s.tableFull = true) :
    exec .addl s = .next (s.raise .listenerTableFull) := if_pos h

theorem exec_addl_of_room {s : State} (h : ¬ s.tableFull = true) :
    exec .addl s = .next ((s.listenerAppend s.bus.opHandle).respond .ok false 0) := if_neg h

/-- Settles O50: `lcount < NL` is a table that is not full, `lcount = NL` one that is. -/
theorem addlAppendsOrFindsTableFull : Obligations.AddlAppendsOrFindsTableFull := by
  refine fun s => ⟨fun hroom => exec_addl_of_room fun hfull => ?room,
    fun n hnl hcount => exec_addl_of_full (tableFull_iff.mpr ⟨n, hnl, hcount.ge⟩)⟩
  case room =>
    obtain ⟨n, hnl, hle⟩ := tableFull_iff.mp hfull
    exact Nat.not_lt_of_le hle (hroom n hnl)

end Sys2Proof.Machine
end

section
/-! R167: the end of a walk by a listener fault. -/

namespace Sys2Proof.Machine

/-- A busy block makes one step of its walk, whatever is presented (R166, R221). -/
theorem step_of_busy {s : State} (h : s.busy = true) : step s = .next (dispatchStep s) := if_pos h

/-- The listener at `disp_idx` has answered `fault` (R167). -/
theorem dispatchStep_fault {s : State} {h : ListenerId} {rest : List Answer}
    (hlt : s.lt[s.dispIdx]? = some h) (hans : s.answers = .fault :: rest) :
    dispatchStep s = (s.recordInvocation h .fault rest).release.raise (.listenerFault s.dispIdx) := by
  simp [dispatchStep, hlt, hans]

/-- Settles O54: the step of the walk is its branch for a fault. -/
theorem listenerFaultEndsWalk : Obligations.ListenerFaultEndsWalk := by
  intro s h rest hbusy hlt hans
  rw [step_of_busy hbusy, dispatchStep_fault hlt hans]
  rfl

end Sys2Proof.Machine
end

section
/-! R187: the parameters that have no instance. -/

namespace Sys2Proof.Machine

/-- A mode's numeral is one of the three R187 allows. -/
theorem numeral_eq_one_or_two_or_three (m : RangeMode) :
    m.numeral = 1#2 ∨ m.numeral = 2#2 ∨ m.numeral = 3#2 := by
  cases m <;> decide

/-- Settles O2: the parameters of an instance are legal, so its bounds are ordered and its `MODE_INIT` is
the numeral of a mode. -/
theorem illegalParametersHaveNoInstance : Obligations.IllegalParametersHaveNoInstance := by
  refine fun c p hbad => Option.eq_none_iff_forall_ne_some.mpr fun s hs => ?_
  obtain ⟨-, hlegal, m, hm, -⟩ := construct_eq_some_iff.mp hs
  obtain ⟨hbounds, -⟩ := initParams_legal_iff.mp hlegal
  obtain hinverted | ⟨hone, htwo, hthree⟩ := hbad
  · exact Int.not_lt.mpr hbounds hinverted
  · obtain h | h | h := hm ▸ numeral_eq_one_or_two_or_three m
    · exact hone h
    · exact htwo h
    · exact hthree h

end Sys2Proof.Machine
end

section
/-! R184: the command whose header selects no operation. -/

namespace Sys2Proof.Machine

/-- An idle block executes the oldest command presented (R60, R221). -/
theorem step_of_idle_cons {s : State} {c : Command} {rest : List Command} (hidle : s.busy = false)
    (hcmd : s.cmdIn = c :: rest) : step s = runCommand s c rest := by
  simp [step, hidle, hcmd]

theorem runCommand_of_decode_error {s : State} {c : Command} {rest : List Command} {e : IllegalHeader}
    (h : decode c.hdr = .error e) : runCommand s c rest = .next (illegalCommand (s.accept c rest)) := by
  simp [runCommand, h]

/-- What refusing `c` leaves: the command is accepted and answered, and nothing else is written (R184). -/
theorem illegalCommand_accept (s : State) (c : Command) (rest : List Command) :
    illegalCommand (s.accept c rest) =
      { s with
        cmdIn := rest, bus := c.ops,
        respOut := s.respOut ++ [⟨.illegalCommand, false, s.value, 0⟩] } := rfl

/-- Settles O14: the step is the refusal of the command, which writes the channels alone. -/
theorem illegalHeaderChangesNoRegister : Obligations.IllegalHeaderChangesNoRegister := by
  intro s c rest e hidle hcmd hdec
  rw [step_of_idle_cons hidle hcmd, runCommand_of_decode_error hdec, illegalCommand_accept]

end Sys2Proof.Machine
end

section
/-! R24, R28, R31, R37, R8: which updates keep the invariant of the registers, and that every step does. -/

namespace Sys2Proof.Machine

/-! ### The updates of the state -/

theorem stSTART_ne_stILLEGAL : stSTART ≠ stILLEGAL := by decide

theorem State.Inv.respond {s : State} (h : s.Inv) (st : Status) (changed : Bool) (info : Nat) :
    (s.respond st changed info).Inv := { h with }

theorem State.Inv.raise {s : State} (h : s.Inv) (f : BlockFault) : (s.raise f).Inv := { h with }

theorem State.Inv.accept {s : State} (h : s.Inv) (c : Command) (rest : List Command) :
    (s.accept c rest).Inv := { h with }

theorem State.Inv.recordInvocation {s : State} (h : s.Inv) (l : ListenerId) (a : Answer)
    (rest : List Answer) : (s.recordInvocation l a rest).Inv := { h with }

theorem State.Inv.commitFsm {s : State} (h : s.Inv) {f : FsmState} (hf : f ≠ stILLEGAL) :
    (s.commitFsm f).Inv := { h with fsm := hf }

theorem State.Inv.storeValue {s : State} (h : s.Inv) {v : Int} (hv : fitsWidth s.cfg.width v = true) :
    (s.storeValue v).Inv := { h with fitsValue := hv }

theorem State.Inv.release {s : State} (h : s.Inv) : s.release.Inv := { h with walk := nofun }

/-- One more entry keeps `lcount <= NL` where the table was not full (R54). -/
theorem State.Inv.listenerAppend {s : State} (h : s.Inv) (hroom : s.tableFull = false) (l : ListenerId) :
    (s.listenerAppend l).Inv :=
  { h with
    table := fun n hn => by
      have hlt : s.lcount < n := tableFull_false hroom hn
      simpa using hlt
    walk := fun hbusy => by
      have hlt : s.dispIdx < s.lcount := h.walk hbusy
      simpa using Nat.lt_succ_of_lt hlt }

theorem State.Inv.reconfigure {s : State} (h : s.Inv) {lo hi v : Int} (hbounds : lo ≤ hi)
    (hlo : fitsWidth s.cfg.width lo = true) (hhi : fitsWidth s.cfg.width hi = true)
    (hv : fitsWidth s.cfg.width v = true) (r : Bool) (m : RangeMode) :
    (s.reconfigure lo hi v r m).Inv :=
  { h with
    bounds := hbounds, fsm := stSTART_ne_stILLEGAL, fitsMin := hlo, fitsMax := hhi, fitsValue := hv }

/-- The `while` test of NOTIFY leaves a walk in progress only at a listener (R31, R165). -/
theorem State.Inv.continueWalk_dispatchAt {s : State} (h : s.Inv) (k : Nat) :
    (continueWalk (s.dispatchAt k)).Inv := by
  obtain ⟨hk, e⟩ | ⟨-, e⟩ := continueWalk_cases (s.dispatchAt k)
  · rw [e]
    exact { h with walk := fun _ => hk }
  · rw [e]
    exact { h with walk := nofun }

/-! ### The operations -/

theorem State.Inv.storeAndNotify {s : State} (h : s.Inv) {new : Int}
    (hnew : fitsWidth s.cfg.width new = true) : (storeAndNotify s new).Inv := by
  obtain ⟨-, e⟩ | ⟨-, e⟩ := storeAndNotify_cases s new
  · rw [e]
    exact (h.storeValue hnew).continueWalk_dispatchAt 0
  · rw [e]
    exact (h.storeValue hnew).respond .ok false 0

theorem State.Inv.dispatchStep {s : State} (h : s.Inv) : (dispatchStep s).Inv := by
  obtain ⟨-, e⟩ | ⟨l, -, ⟨-, e⟩ | ⟨rest, -, e⟩ | ⟨rest, -, e⟩⟩ := dispatchStep_cases s
  · rw [e]
    exact h.release.respond .ok true 0
  · rwa [e]
  · rw [e]
    exact (h.recordInvocation l .done rest).continueWalk_dispatchAt (s.dispIdx + 1)
  · rw [e]
    exact (h.recordInvocation l .fault rest).release.raise (.listenerFault s.dispIdx)

/-- The next state EDGE stores is never ILLEGAL (R37, R108). -/
theorem edgeNext_ne_stILLEGAL (s : State) (clk dt : Bool) : s.edgeNext clk dt ≠ stILLEGAL :=
  fsmNext_ne_stILLEGAL s.fsmState (codeOf clk dt)

theorem State.Inv.exec_edge {s t : State} (h : s.Inv) {clk dt : Bool}
    (ht : exec (.edge clk dt) s = .next t) : t.Inv := by
  rw [Machine.exec_edge] at ht
  have hfsm : (s.commitFsm (s.edgeNext clk dt)).Inv := h.commitFsm (edgeNext_ne_stILLEGAL s clk dt)
  obtain ⟨-, rfl⟩ | ⟨-, new, hnew, rfl⟩ := resolveStep_cases ht
  · exact hfsm.respond .ok false 0
  · obtain ⟨-, hfits⟩ := newValue_ok_iff.mp hnew
    exact hfsm.storeAndNotify hfits

/-- A number field of a RECONF fits `W`, whether its bus is read or not (R82, R84). -/
theorem fitsWidth_field {w : Option Nat} (hw : w ≠ some 0) (named : Bool) (presented : Int) {prior : Int}
    (hprior : fitsWidth w prior = true) :
    fitsWidth w (field named (busSigned w presented) prior) = true := by
  cases named
  · exact hprior
  · exact fitsWidth_busSigned hw presented

theorem State.Inv.exec_reconf {s t : State} (h : s.Inv) {fMode fRev fMax fMin fValue r : Bool}
    {mode : ModeBits} (ht : exec (.reconf fMode fRev fMax fMin fValue r mode) s = .next t) : t.Inv := by
  obtain rfl | ⟨m, -, hbounds, rfl⟩ := execReconf_cases ht
  · exact h.raise .invalidConfiguration
  · have hmin := fitsWidth_field h.width fMin s.bus.opMin h.fitsMin
    have hmax := fitsWidth_field h.width fMax s.bus.opMax h.fitsMax
    have hvalue := fitsWidth_field h.width fValue s.bus.opValue h.fitsValue
    exact (h.reconfigure hbounds hmin hmax hvalue (field fRev r s.rev) m).respond .ok false 0

theorem State.Inv.exec_addl {s t : State} (h : s.Inv) (ht : exec .addl s = .next t) : t.Inv := by
  obtain ⟨-, rfl⟩ | ⟨hroom, rfl⟩ := execAddl_cases ht
  · exact h.raise .listenerTableFull
  · exact (h.listenerAppend hroom s.bus.opHandle).respond .ok false 0

theorem State.Inv.exec {s t : State} (h : s.Inv) {i : Instr} (ht : exec i s = .next t) : t.Inv := by
  cases i with
  | edge clk dt => exact h.exec_edge ht
  | rdval =>
    obtain rfl := Host.Outcome.next.inj ht
    exact h.respond .ok false 0
  | reconf fMode fRev fMax fMin fValue r mode => exact h.exec_reconf ht
  | rstval =>
    obtain rfl := Host.Outcome.next.inj ht
    exact (h.storeValue (fitsWidth_zero _)).respond .ok false 0
  | addl => exact h.exec_addl ht

/-- Settles O4: a step is a step of the walk, nothing, an operation, or the refusal of a header. -/
theorem stepKeepsInvariant : Obligations.StepKeepsInvariant := by
  intro s t h ht
  obtain ⟨-, rfl⟩ | ⟨-, -, rfl⟩ | ⟨c, rest, i, -, -, -, hexec⟩ | ⟨c, rest, e, -, -, -, rfl⟩ := step_cases ht
  · exact h.dispatchStep
  · exact h
  · exact (h.accept c rest).exec hexec
  · exact (h.accept c rest).raise .illegalCommand

/-! ### Reset, and the runs -/

/-- Legal parameters give an instance that meets the invariant with `value` in range (R34, R36 (a)). -/
theorem construct_inv_inRange {c : Config} {p : InitParams} {s : State} (h : construct c p = some s) :
    s.Inv ∧ s.InRange := by
  obtain ⟨hc, hp, m, -, rfl⟩ := construct_eq_some_iff.mp h
  obtain ⟨hbounds, hmin, hmax, -⟩ := initParams_legal_iff.mp hp
  have hinv : (launch c p m).Inv :=
    { bounds := hbounds, fsm := stSTART_ne_stILLEGAL, table := fun n _ => Nat.zero_le n, walk := nofun,
      width := of_decide_eq_true hc, fitsValue := hmin, fitsMin := hmin, fitsMax := hmax }
  exact ⟨hinv, Int.le_refl _, hbounds⟩

/-- `State.reset` is the instance of the scenario's parameters (log entry 1). -/
theorem construct_scenario : construct Config.unbounded InitParams.scenario = some State.reset := rfl

/-- Settles O3: `State.reset` is a constructed instance, and those start with ordered, fitting bounds. -/
theorem resetStateMeetsInvariant : Obligations.ResetStateMeetsInvariant :=
  ⟨construct_inv_inRange construct_scenario, fun _ _ _ => construct_inv_inRange⟩

/-- The other agents write the command channel and the answers, which the invariant does not read. -/
theorem State.Inv.move {s t : State} (h : s.Inv) (hm : Move s t) : t.Inv := by
  cases hm with
  | block hstep => exact stepKeepsInvariant s t h hstep
  | present c => exact { h with }
  | answer a => exact { h with }

/-- Settles O5: by induction on the run. -/
theorem reachableStatesMeetInvariant : Obligations.ReachableStatesMeetInvariant := by
  intro s hs
  induction hs with
  | launch h => exact (construct_inv_inRange h).1
  | move _ hm ih => exact ih.move hm

end Sys2Proof.Machine
end

section
/-! R81, R83, R85, R91: which rows select a header, and that decoding inverts encoding. Two headers that a row
selects agree in the bits of its mask, and the other bits are the operands it reads. -/

namespace Sys2Proof

open Laws.RowSelect

/-! ### From the operation to its header -/

theorem rowSelect_statement (i : Instr) : Statement i := by
  cases i with
  | edge clk dt => exact edge clk dt
  | rdval => exact rdval
  | reconf fMode fRev fMax fMin fValue r mode => exact reconf fMode fRev fMax fMin fValue r mode
  | rstval => exact rstval
  | addl => exact addl

/-- Reading the operands back from the operation's own header. -/
theorem extract_encode (i : Instr) : (rowOf i).extract (encode i) = i := by
  cases i with
  | edge clk dt => decide +revert
  | rdval => rfl
  | reconf fMode fRev fMax fMin fValue r mode => decide +revert
  | rstval => rfl
  | addl => rfl

/-- The row the decoder finds for the operation's header is the operation's own. -/
theorem exists_find_encode (i : Instr) :
    ∃ r, opTable.find? (fun r => r.selects (encode i)) = some r ∧ r.op = rowOf i := by
  obtain ⟨hrows, -⟩ := rowSelect_statement i
  have hhead := congrArg List.head? hrows
  rw [List.head?_map, List.head?_filter] at hhead
  exact Option.map_eq_some_iff.mp hhead

theorem decode_of_find {h : Header} {r : OpRow} (hr : opTable.find? (fun r => r.selects h) = some r) :
    decode h = .ok (r.op.extract h) := by
  simp [decode, hr]

theorem decode_of_find_none {h : Header} (hr : opTable.find? (fun r => r.selects h) = none) :
    decode h = .error (whyIllegal h) := by
  simp [decode, hr]

theorem decode_encode (i : Instr) : decode (encode i) = .ok i := by
  obtain ⟨r, hfind, hop⟩ := exists_find_encode i
  rw [decode_of_find hfind, hop, extract_encode]

/-! ### From the header to its operation -/

/-- A field holds a number when its bits do. -/
theorem field_eq_iff {h : Header} {start len : Nat} {v : BitVec len} :
    h.extractLsb' start len = v ↔ ∀ k < len, h.getLsbD (start + k) = v.getLsbD k := by
  rw [BitVec.eq_of_getLsbD_eq_iff]
  exact forall₂_congr fun k hk => by rw [BitVec.getLsbD_extractLsb', decide_eq_true hk, Bool.true_and]

/-- Two headers are equal when they agree under a mask and in the bits the mask leaves free. -/
theorem eq_of_and_eq {g h mask : Header} (hand : g &&& mask = h &&& mask)
    (hfree : ∀ k < 16, mask.getLsbD k = false → g.getLsbD k = h.getLsbD k) : g = h := by
  refine BitVec.eq_of_getLsbD_eq fun k hk => ?_
  cases hm : mask.getLsbD k with
  | false => exact hfree k hk hm
  | true =>
    have hbit := congrArg (fun w => BitVec.getLsbD w k) hand
    simpa only [BitVec.getLsbD_and, hm, Bool.and_true] using hbit

/-- The bits of an EDGE that R83 leaves free. -/
theorem edgeMask_free : ∀ k < 16, (0xFFFC#16).getLsbD k = false → k = 0 ∨ k = 1 := by decide

/-- The bits of a RECONF that R83 leaves free. -/
theorem reconfMask_free : ∀ k < 16, (0xE0E3#16).getLsbD k = false →
    k = 2 ∨ k = 3 ∨ k = 4 ∨ k = 8 ∨ k = 9 ∨ k = 10 ∨ k = 11 ∨ k = 12 := by decide

theorem eq_of_extract_edge_eq {g h : Header} (hand : g &&& 0xFFFC#16 = h &&& 0xFFFC#16)
    (hops : Op.edge.extract g = Op.edge.extract h) : g = h := by
  obtain ⟨hclk, hdt⟩ := Instr.edge.inj hops
  refine eq_of_and_eq hand fun k hk hm => ?_
  obtain rfl | rfl := edgeMask_free k hk hm
  · exact hdt
  · exact hclk

theorem eq_of_extract_reconf_eq {g h : Header} (hand : g &&& 0xE0E3#16 = h &&& 0xE0E3#16)
    (hops : Op.reconf.extract g = Op.reconf.extract h) : g = h := by
  obtain ⟨hMode, hRev, hMax, hMin, hValue, hr, hmode⟩ := Instr.reconf.inj hops
  have hmodeBit (k : Nat) (hk : k < 2) : g.getLsbD (2 + k) = h.getLsbD (2 + k) :=
    (field_eq_iff.mp hmode k hk).trans (field_eq_iff.mp rfl k hk).symm
  refine eq_of_and_eq hand fun k hk hm => ?_
  obtain rfl | rfl | rfl | rfl | rfl | rfl | rfl | rfl := reconfMask_free k hk hm
  · exact hmodeBit 0 (by decide)
  · exact hmodeBit 1 (by decide)
  · exact hr
  · exact hValue
  · exact hMin
  · exact hMax
  · exact hRev
  · exact hMode

/-- A row without operand bits is selected by one header. -/
theorem eq_of_and_allBits {h pattern : Header} (hs : h &&& 0xFFFF#16 = pattern) : h = pattern :=
  BitVec.and_allOnes.symm.trans hs

/-- Two headers that a row selects differ in the operands it reads, or not at all. -/
theorem eq_of_selects_of_extract_eq {g h : Header} {r : OpRow} (hr : r ∈ opTable)
    (hg : r.selects g = true) (hh : r.selects h = true) (hops : r.op.extract g = r.op.extract h) : g = h := by
  have hg' : g &&& r.mask = r.pattern := of_decide_eq_true hg
  have hh' : h &&& r.mask = r.pattern := of_decide_eq_true hh
  simp only [opTable, List.mem_cons, List.not_mem_nil, or_false] at hr
  obtain rfl | rfl | rfl | rfl | rfl := hr
  · exact eq_of_extract_edge_eq (hg'.trans hh'.symm) hops
  · exact (eq_of_and_allBits hg').trans (eq_of_and_allBits hh').symm
  · exact eq_of_extract_reconf_eq (hg'.trans hh'.symm) hops
  · exact (eq_of_and_allBits hg').trans (eq_of_and_allBits hh').symm
  · exact (eq_of_and_allBits hg').trans (eq_of_and_allBits hh').symm

theorem rowOf_extract (op : Op) (h : Header) : rowOf (op.extract h) = op := by
  cases op <;> rfl

/-- Each operation has one row (R83). -/
theorem row_eq_of_op_eq : ∀ q ∈ opTable, ∀ r ∈ opTable, q.op = r.op → q = r := by decide

/-- A header is the encoding of what its row reads from it. -/
theorem encode_extract_of_selects {h : Header} {r : OpRow} (hr : r ∈ opTable) (hs : r.selects h = true) :
    encode (r.op.extract h) = h := by
  obtain ⟨q, hfind, hop⟩ := exists_find_encode (r.op.extract h)
  rw [rowOf_extract] at hop
  obtain rfl := row_eq_of_op_eq q (List.mem_of_find?_eq_some hfind) r hr hop
  have hself := extract_encode (q.op.extract h)
  rw [rowOf_extract] at hself
  exact eq_of_selects_of_extract_eq hr (List.find?_some (p := fun r : OpRow => r.selects _) hfind) hs hself

theorem encode_of_decode {h : Header} {i : Instr} (hd : decode h = .ok i) : encode i = h := by
  cases hr : opTable.find? (fun r => r.selects h) with
  | none => simp [decode_of_find_none hr] at hd
  | some r =>
    rw [decode_of_find hr] at hd
    obtain rfl := Except.ok.inj hd
    have hs : r.selects h = true := List.find?_some (p := fun r : OpRow => r.selects h) hr
    exact encode_extract_of_selects (List.mem_of_find?_eq_some hr) hs

/-- Settles O9: each direction is one round trip. -/
theorem decodeInvertsEncode : Obligations.DecodeInvertsEncode := by
  refine fun h i => ⟨fun hd => (encode_of_decode hd).symm, ?_⟩
  rintro rfl
  exact decode_encode i

/-! ### The illegal headers -/

/-- The bits of a header that its row reserves are 0 (R85). -/
def ReservedZero (h : Header) : Op → Prop
  | .edge => h.extractLsb' 2 11 = 0#11
  | .reconf => h.extractLsb' 5 3 = 0#3 ∧ h.extractLsb' 0 2 = 0#2
  | .rdval | .rstval | .addl => h.extractLsb' 0 13 = 0#13

/-- A header matches a row when each bit of the mask does. -/
theorem and_eq_iff {h mask pattern : Header} :
    h &&& mask = pattern ↔ ∀ k < 16, (h.getLsbD k && mask.getLsbD k) = pattern.getLsbD k := by
  simp only [BitVec.eq_of_getLsbD_eq_iff, BitVec.getLsbD_and]

theorem and_edgeMask_iff {h : Header} :
    h &&& 0xFFFC#16 = 0x2000#16 ↔ opField h = 1#3 ∧ h.extractLsb' 2 11 = 0#11 := by
  simp only [opField, and_eq_iff, field_eq_iff, Nat.forall_lt_succ_right, Nat.not_lt_zero, IsEmpty.forall_iff,
    implies_true, true_and]
  simp
  tauto

theorem and_reconfMask_iff {h : Header} :
    h &&& 0xE0E3#16 = 0x6000#16 ↔
      opField h = 3#3 ∧ h.extractLsb' 5 3 = 0#3 ∧ h.extractLsb' 0 2 = 0#2 := by
  simp only [opField, and_eq_iff, field_eq_iff, Nat.forall_lt_succ_right, Nat.not_lt_zero, IsEmpty.forall_iff,
    implies_true, true_and]
  simp
  tauto

/-- A header is its `op` field and the thirteen bits below it (R81). -/
theorem eq_opField_append (h : Header) : h = opField h ++ h.extractLsb' 0 13 :=
  calc h = h.extractLsb' 0 (3 + 13) := BitVec.extractLsb'_eq_self.symm
    _ = h.extractLsb' 13 3 ++ h.extractLsb' 0 13 :=
      (BitVec.extractLsb'_append_extractLsb'_eq_extractLsb' rfl).symm

theorem and_plainMask_iff {h : Header} (op : BitVec 3) :
    h &&& 0xFFFF#16 = op ++ 0#13 ↔ opField h = op ∧ h.extractLsb' 0 13 = 0#13 := by
  constructor
  · intro hs
    obtain rfl := eq_of_and_allBits hs
    decide +revert
  · rintro ⟨rfl, h0⟩
    rw [← h0, ← eq_opField_append]
    exact BitVec.and_allOnes

/-- A row selects a header by its number in `op` and by the bits it reserves (R83, R85). -/
theorem selects_iff {h : Header} {r : OpRow} (hr : r ∈ opTable) :
    r.selects h = true ↔ opField h = numberOf r.op ∧ ReservedZero h r.op := by
  rw [OpRow.selects, decide_eq_true_eq]
  simp only [opTable, List.mem_cons, List.not_mem_nil, or_false] at hr
  obtain rfl | rfl | rfl | rfl | rfl := hr
  · exact and_edgeMask_iff
  · exact and_plainMask_iff 2#3
  · exact and_reconfMask_iff
  · exact and_plainMask_iff 4#3
  · exact and_plainMask_iff 5#3

/-- A header is illegal when each row has another number or reserves a bit that is set (R85). -/
theorem exists_decode_error_iff {h : Header} :
    (∃ e, decode h = .error e) ↔ ∀ r ∈ opTable, ¬ (opField h = numberOf r.op ∧ ReservedZero h r.op) :=
  calc (∃ e, decode h = .error e)
      ↔ opTable.find? (fun r => r.selects h) = none := by
        cases hr : opTable.find? (fun r => r.selects h) with
        | none => simp [decode_of_find_none hr]
        | some r => simp [decode_of_find hr]
    _ ↔ ∀ r ∈ opTable, ¬ r.selects h = true := List.find?_eq_none
    _ ↔ _ := forall₂_congr fun _ hr => not_congr (selects_iff hr)

/-- No two rows have the same number in `op`. -/
theorem countP_numberOf_le_one (n : BitVec 3) : opTable.countP (fun r => n = numberOf r.op) ≤ 1 := by
  decide +revert

/-- The rows that select a header share its number, so there is at most one (R83). -/
theorem length_filter_selects_le_one (h : Header) :
    (opTable.filter (fun r => r.selects h)).length ≤ 1 :=
  calc (opTable.filter (fun r => r.selects h)).length
      = opTable.countP (fun r => r.selects h) := List.countP_eq_length_filter.symm
    _ ≤ opTable.countP (fun r => opField h = numberOf r.op) :=
      List.countP_mono_left fun _ hr hs => decide_eq_true ((selects_iff hr).mp hs).1
    _ ≤ 1 := countP_numberOf_le_one (opField h)

/-- The eight values of `op`. -/
theorem op_values (n : BitVec 3) :
    n = 0#3 ∨ n = 1#3 ∨ n = 2#3 ∨ n = 3#3 ∨ n = 4#3 ∨ n = 5#3 ∨ n = 6#3 ∨ n = 7#3 := by
  decide +revert

/-- Settles O10: for each number in `op` the only row that can select the header is the one with that
number, and it does so unless a bit it reserves is set. -/
theorem illegalHeadersByField : Obligations.IllegalHeadersByField := by
  refine ⟨fun h => ?fields, length_filter_selects_le_one⟩
  case fields =>
    rw [exists_decode_error_iff, ← opField]
    simp only [opTable, List.forall_mem_cons, numberOf, ReservedZero]
    obtain e | e | e | e | e | e | e | e := op_values (opField h) <;> simp [e, imp_iff_not_or]

/-! ### Sample words -/

/-- Settles O11: the six operations are read back from their own encodings, the four other words fit no
row. -/
theorem sampleHeaderWordsDecode : Obligations.SampleHeaderWordsDecode :=
  ⟨decode_encode (.edge true false), decode_encode .rdval,
    decode_encode (.reconf true true true true true true 3#2),
    decode_encode (.reconf true false true false false false 3#2), decode_encode .rstval,
    decode_encode .addl, by decide, by decide, by decide, by decide⟩

end Sys2Proof
end

section
/-! R15, R125, R128 to R132: the laws of the range policy. WRAP's follow from what determines its result:
the one number within the bounds that is congruent to `value + step` modulo the span. -/

namespace Sys2Proof.Machine

/-! ### clamp -/

theorem clamp_of_lt {x lo hi : Int} (h : x < lo) : clamp x lo hi = lo := if_pos h

theorem clamp_of_gt {x lo hi : Int} (hb : lo ≤ hi) (h : hi < x) : clamp x lo hi = hi :=
  (if_neg (by omega)).trans (if_pos h)

theorem clamp_of_between {x lo hi : Int} (h1 : lo ≤ x) (h2 : x ≤ hi) : clamp x lo hi = x :=
  (if_neg (by omega)).trans (if_neg (by omega))

/-- WRAP and BOUNDED give nothing for inverted bounds (N22; log entry 8). -/
theorem applyStep_inverted {v step lo hi : Int} {m : RangeMode} (hm : m ≠ .unbounded) (h : hi < lo) :
    applyStep v step m lo hi = none := by
  cases m with
  | unbounded => exact absurd rfl hm
  | wrap => exact if_neg (Int.not_le.mpr h)
  | bounded => exact if_neg (Int.not_le.mpr h)

/-- Settles O37: one case per branch of `clamp`. -/
theorem clampWithinBounds : Obligations.ClampWithinBounds :=
  ⟨fun _ _ _ hb => ⟨clamp_of_lt, clamp_of_gt hb, clamp_of_between⟩,
    fun _ _ _ _ h => applyStep_inverted (by decide) h⟩

/-! ### WRAP -/

/-- What determines a WRAP result (R14, R122). -/
theorem stepWrap_eq_iff {v st lo hi r : Int} (hb : lo ≤ hi) :
    stepWrap v st lo hi = r ↔ lo ≤ r ∧ r ≤ hi ∧ spanOf lo hi ∣ v + st - r := by
  have hdiff (x : Int) : v - lo + st - (x - lo) = v + st - x := by ring
  constructor
  · rintro rfl
    obtain ⟨h1, h2⟩ := stepWrap_range v st hb
    refine ⟨h1, h2, ?_⟩
    have hdvd : spanOf lo hi ∣ v - lo + st - fmod (v - lo + st) (spanOf lo hi) := dvd_sub_fmod _ _
    rwa [← hdiff, stepWrap, add_sub_cancel_left]
  · rintro ⟨h1, h2, hdvd⟩
    rw [← hdiff] at hdvd
    have hres : r - lo = fmod (v - lo + st) (spanOf lo hi) :=
      eq_fmod_of_dvd_sub (by omega) (by unfold spanOf; omega) hdvd
    unfold stepWrap
    omega

/-- A step that stays within the bounds moves by itself. -/
theorem stepWrap_of_between {v st lo hi : Int} (h1 : lo ≤ v + st) (h2 : v + st ≤ hi) :
    stepWrap v st lo hi = v + st :=
  (stepWrap_eq_iff (by omega)).mpr ⟨h1, h2, by simp⟩

/-- One above the upper bound is the lower bound (R128 (a)). -/
theorem stepWrap_above {v st lo hi : Int} (hb : lo ≤ hi) (h : v + st = hi + 1) :
    stepWrap v st lo hi = lo :=
  (stepWrap_eq_iff hb).mpr ⟨Int.le_refl _, hb, ⟨1, by unfold spanOf; omega⟩⟩

/-- One below the lower bound is the upper bound (R128 (a)). -/
theorem stepWrap_below {v st lo hi : Int} (hb : lo ≤ hi) (h : v + st = lo - 1) :
    stepWrap v st lo hi = hi :=
  (stepWrap_eq_iff hb).mpr ⟨hb, Int.le_refl _, ⟨-1, by unfold spanOf; omega⟩⟩

/-- With span 1 the lower bound is the only result (R128 (e)). -/
theorem stepWrap_span_one (v st : Int) {lo hi : Int} (h : lo = hi) : stepWrap v st lo hi = lo := by
  have hrange := stepWrap_range v st h.le
  omega

/-- A number smaller than the span is divisible by it only where the span is 1, when it is +1 or -1. -/
theorem dvd_unit_step_iff {n st : Int} (hn : 1 ≤ n) (hst : st = 1 ∨ st = -1) : n ∣ st ↔ n = 1 := by
  have hone : n ∣ 1 ↔ n = 1 := by
    refine ⟨fun hd => ?_, fun h => h.dvd⟩
    have := Int.le_of_dvd Int.one_pos hd
    omega
  obtain rfl | rfl := hst
  · exact hone
  · rw [dvd_neg, hone]

/-- A WRAP step changes nothing only with span 1 at the lower bound (R125, R128 (f)). -/
theorem stepWrap_eq_self_iff {v st lo hi : Int} (hb : lo ≤ hi) (hst : st = 1 ∨ st = -1) :
    stepWrap v st lo hi = v ↔ lo = hi ∧ v = lo := by
  rw [stepWrap_eq_iff hb, add_sub_cancel_left, dvd_unit_step_iff (spanOf_pos hb) hst, spanOf]
  omega

/-- Two steps come to the one step of their sum. -/
theorem stepWrap_stepWrap {lo hi : Int} (hb : lo ≤ hi) (v a b : Int) :
    stepWrap (stepWrap v a lo hi) b lo hi = stepWrap v (a + b) lo hi := by
  obtain ⟨-, -, hfirst⟩ := (stepWrap_eq_iff (v := v) (st := a) hb).mp rfl
  obtain ⟨h1, h2, hboth⟩ := (stepWrap_eq_iff (v := v) (st := a + b) hb).mp rfl
  refine (stepWrap_eq_iff hb).mpr ⟨h1, h2, ?_⟩
  have hdiff : stepWrap v a lo hi + b - stepWrap v (a + b) lo hi =
      v + (a + b) - stepWrap v (a + b) lo hi - (v + a - stepWrap v a lo hi) := by ring
  rw [hdiff]
  exact dvd_sub hboth hfirst

/-- A step by a multiple of the span returns to an in-range value. -/
theorem stepWrap_of_dvd {v st lo hi : Int} (h1 : lo ≤ v) (h2 : v ≤ hi) (hd : spanOf lo hi ∣ st) :
    stepWrap v st lo hi = v :=
  (stepWrap_eq_iff (h1.trans h2)).mpr ⟨h1, h2, by simpa using hd⟩

/-- `n` steps from an in-range value come to the one step of `n` times the size. -/
theorem iterate_stepWrap {v lo hi : Int} (h1 : lo ≤ v) (h2 : v ≤ hi) (st : Int) (n : Nat) :
    (fun x => stepWrap x st lo hi)^[n] v = stepWrap v (n * st) lo hi := by
  induction n with
  | zero => simpa using (stepWrap_of_dvd h1 h2 (dvd_zero _)).symm
  | succ n ih =>
    rw [Function.iterate_succ_apply', ih, stepWrap_stepWrap (h1.trans h2)]
    congr 1
    push_cast
    ring

/-- After any steps but none the value is in range: the last step puts it there (R128 (d)). -/
theorem foldl_stepWrap_range {lo hi : Int} (hb : lo ≤ hi) {steps : List Int} (hne : steps ≠ []) (v : Int) :
    lo ≤ steps.foldl (fun x st => stepWrap x st lo hi) v ∧
      steps.foldl (fun x st => stepWrap x st lo hi) v ≤ hi := by
  rw [← List.dropLast_append_getLast hne, List.foldl_append]
  exact stepWrap_range _ _ hb

/-- Settles O38: each law from what determines a WRAP result; the last from the sum of `span` steps, which
is a multiple of the span. -/
theorem wrapLaws : Obligations.WrapLaws := by
  intro lo hi hb
  refine ⟨stepWrap_above hb rfl, stepWrap_below hb rfl,
    fun v h1 h2 => stepWrap_of_between (by omega) (by omega),
    fun v h1 h2 => stepWrap_of_between (by omega) (by omega),
    fun steps hne v => foldl_stepWrap_range hb hne v,
    fun h v => ⟨stepWrap_span_one v 1 h, stepWrap_span_one v (-1) h⟩,
    fun v st hst => stepWrap_eq_self_iff hb hst, fun v h1 h2 => ⟨?undoUp, ?undoDown⟩,
    fun v st _ h1 h2 => ?cycle⟩
  case undoUp =>
    rw [stepWrap_stepWrap hb]
    exact stepWrap_of_dvd h1 h2 (by simp)
  case undoDown =>
    rw [stepWrap_stepWrap hb]
    exact stepWrap_of_dvd h1 h2 (by simp)
  case cycle =>
    have hspan : ((hi - lo + 1).toNat : Int) = spanOf lo hi := Int.toNat_of_nonneg (by omega)
    rw [iterate_stepWrap h1 h2, hspan]
    exact stepWrap_of_dvd h1 h2 (dvd_mul_right _ _)

/-! ### BOUNDED and UNBOUNDED -/

/-- A step that stays within the bounds moves by itself. -/
theorem stepBounded_of_between {v st lo hi : Int} (h1 : lo ≤ v + st) (h2 : v + st ≤ hi) :
    stepBounded v st lo hi = v + st := clamp_of_between h1 h2

/-- At or above the upper bound the result is the upper bound (R129, R131). -/
theorem stepBounded_above {v st lo hi : Int} (hb : lo ≤ hi) (h : hi ≤ v + st) :
    stepBounded v st lo hi = hi := by
  obtain heq | hlt := h.eq_or_lt
  · exact (clamp_of_between (by omega) (by omega)).trans heq.symm
  · exact clamp_of_gt hb hlt

/-- At or below the lower bound the result is the lower bound (R129, R131). -/
theorem stepBounded_below {v st lo hi : Int} (hb : lo ≤ hi) (h : v + st ≤ lo) :
    stepBounded v st lo hi = lo := by
  obtain heq | hlt := h.eq_or_lt
  · exact (clamp_of_between (by omega) (by omega)).trans heq
  · exact clamp_of_lt hlt

/-- A BOUNDED step changes nothing only at the bound it runs against (R125). -/
theorem stepBounded_eq_self_iff {v st lo hi : Int} (hb : lo ≤ hi) (hst : st = 1 ∨ st = -1) :
    stepBounded v st lo hi = v ↔ (v = hi ∧ st = 1) ∨ (v = lo ∧ st = -1) := by
  by_cases hlow : v + st ≤ lo
  · rw [stepBounded_below hb hlow]
    omega
  · by_cases hhigh : hi ≤ v + st
    · rw [stepBounded_above hb hhigh]
      omega
    · rw [stepBounded_of_between (by omega) (by omega)]
      omega

/-- Settles O39: each law is one of the three cases of a BOUNDED step. -/
theorem boundedLaws : Obligations.BoundedLaws := by
  intro lo hi hb
  have hup : stepBounded hi 1 lo hi = hi := stepBounded_above hb (by omega)
  have hdown : stepBounded lo (-1) lo hi = lo := stepBounded_below hb (by omega)
  refine ⟨fun n => ⟨Function.iterate_fixed (f := fun x => stepBounded x 1 lo hi) hup n,
      Function.iterate_fixed (f := fun x => stepBounded x (-1) lo hi) hdown n⟩,
    fun v h1 h2 => stepBounded_of_between (by omega) (by omega),
    fun v h1 h2 => stepBounded_of_between (by omega) (by omega), fun hlt => ?turn, fun heq v => ?equal⟩
  case turn =>
    rw [hup]
    exact stepBounded_of_between (by omega) (by omega)
  case equal =>
    have hup := stepBounded_range v 1 hb
    have hdown := stepBounded_range v (-1) hb
    omega

/-- Repeated UNBOUNDED steps add up, whatever the bounds (R130). -/
theorem iterate_applyStep_unbounded (st lo hi : Int) (n : Nat) (v : Int) :
    (fun x => (applyStep x st .unbounded lo hi).getD 0)^[n] v = v + n * st := by
  have hadd : (fun x => (applyStep x st .unbounded lo hi).getD 0) = (· + st) := rfl
  rw [hadd, add_right_iterate_apply, nsmul_eq_mul]

/-- Settles O40: `n` steps of +1 add `n`, `n` steps of -1 take `n` off. -/
theorem unboundedRoundTrip : Obligations.UnboundedRoundTrip := by
  intro n v lo hi
  simp only [iterate_applyStep_unbounded]
  omega

/-! ### In range, out of range, unchanged -/

/-- Settles O41: mode by mode, when the result is the old value. -/
theorem stepUnchangedCases : Obligations.StepUnchangedCases := by
  intro v step lo hi m hst hb
  cases m with
  | unbounded =>
    have hne : stepUnbounded v step ≠ v := by
      unfold stepUnbounded
      omega
    simp [applyStep, hne]
  | wrap =>
    have hspan : hi - lo + 1 = 1 ↔ lo = hi := by omega
    simp [applyStep, hb, stepWrap_eq_self_iff hb hst, hspan]
  | bounded => simp [applyStep, hb, stepBounded_eq_self_iff hb hst]

/-- Settles O42: above, below and within the bounds, where one step of an in-range value can lead. -/
theorem inRangeFormsAgree : Obligations.InRangeFormsAgree := by
  intro v step lo hi hst h1 h2
  have hb : lo ≤ hi := h1.trans h2
  by_cases hhigh : v + step > hi
  · rw [if_pos hhigh, if_pos hhigh]
    exact ⟨stepWrap_above hb (by omega), stepBounded_above hb hhigh.le⟩
  · rw [if_neg hhigh, if_neg hhigh]
    by_cases hlow : v + step < lo
    · rw [if_pos hlow, if_pos hlow]
      exact ⟨stepWrap_below hb (by omega), stepBounded_below hb hlow.le⟩
    · rw [if_neg hlow, if_neg hlow]
      exact ⟨stepWrap_of_between (by omega) (by omega), stepBounded_of_between (by omega) (by omega)⟩

/-- Settles O43: a step of one brings an out-of-range value at most to the bound, and both policies end
within the bounds. -/
theorem outOfRangeValueJumps : Obligations.OutOfRangeValueJumps := by
  intro v step lo hi hst hb
  obtain ⟨hwlo, hwhi, hdvd⟩ := (stepWrap_eq_iff (v := v) (st := step) hb).mp rfl
  obtain ⟨hblo, hbhi⟩ := stepBounded_range v step hb
  exact ⟨fun h => stepBounded_below hb (by omega), fun h => stepBounded_above hb (by omega), hdvd,
    fun h => by omega⟩

end Sys2Proof.Machine
end

section
/-! R82, R140 to R143: what RECONF reads from its buses, its two checks and its two ends. -/

namespace Sys2Proof.Machine

/-! ### The operand buses -/

/-- A bus is read by its low `W` bits taken as signed, which is the number presented where that fits (R82;
log entry 6). -/
theorem busReads_busSigned (width : Option Nat) (presented : Int) :
    BusReads width presented (busSigned width presented) where
  unbounded hw := by
    subst hw
    rfl
  fitting w hw hpos hfits := by
    subst hw
    refine busSigned_of_fits (by simp; omega) (fitsWidth_iff_inWidth.mpr fun n hn => ?_)
    exact Option.some.inj hn ▸ hfits
  lowBits w hw hpos := by
    subst hw
    refine ⟨fitsWidth_iff_inWidth.mp (fitsWidth_busSigned (by simp; omega) presented) w rfl, ?_⟩
    exact_mod_cast Int.dvd_self_sub_bmod (x := presented) (m := 2 ^ w)

theorem State.busesRead (s : State) : s.BusesRead :=
  ⟨busReads_busSigned _ _, busReads_busSigned _ _, busReads_busSigned _ _⟩

/-! ### The two checks -/

/-- What RECONF refuses (R142): a mode named with the numeral 0, and inverted resulting bounds. -/
def ReconfRejected (fMode fMax fMin : Bool) (mode : ModeBits) (s : State) : Prop :=
  (fMode = true ∧ mode = 0#2) ∨ field fMax s.busMax s.maxVal < field fMin s.busMin s.minVal

/-- Only the numeral 0 names no mode (R76). -/
theorem ofNumeral_eq_none_iff {b : ModeBits} : RangeMode.ofNumeral b = none ↔ b = 0#2 := by
  decide +revert

/-- The mode field is missing only where the numeral 0 is named (R142 (1)). -/
theorem modeField_eq_none_iff {fMode : Bool} {mode : ModeBits} {prior : RangeMode} :
    modeField fMode mode prior = none ↔ fMode = true ∧ mode = 0#2 := by
  cases fMode with
  | false => simp
  | true => simpa [modeField] using ofNumeral_eq_none_iff

/-- The mode field is the mode named, or the prior one (R76, R141). -/
theorem modeField_eq_some_iff {fMode : Bool} {mode : ModeBits} {prior m : RangeMode} :
    modeField fMode mode prior = some m ↔
      (fMode = true → m.numeral = mode) ∧ (fMode = false → m = prior) := by
  cases fMode with
  | false => simp [eq_comm]
  | true => simpa [modeField] using ofNumeral_eq_some_iff

/-- A rejected RECONF raises InvalidConfiguration and writes nothing (R142). -/
theorem exec_reconf_of_rejected {fMode fRev fMax fMin fValue r : Bool} {mode : ModeBits} {s : State}
    (h : ReconfRejected fMode fMax fMin mode s) :
    exec (.reconf fMode fRev fMax fMin fValue r mode) s = .next (s.raise .invalidConfiguration) := by
  rw [ReconfRejected, ← modeField_eq_none_iff (prior := s.rangeMode)] at h
  cases hm : modeField fMode mode s.rangeMode with
  | none => simp [exec, execReconf, hm]
  | some m =>
    have hbounds := h.resolve_left (by simp [hm])
    simp [exec, execReconf, hm, hbounds]

/-- A RECONF that is not rejected has a mode to store, and completes (R141, R143). -/
theorem exec_reconf_of_not_rejected {fMode fRev fMax fMin fValue r : Bool} {mode : ModeBits} {s : State}
    (h : ¬ ReconfRejected fMode fMax fMin mode s) :
    ∃ m, modeField fMode mode s.rangeMode = some m ∧
      exec (.reconf fMode fRev fMax fMin fValue r mode) s =
        .next ((s.reconfigure (field fMin s.busMin s.minVal) (field fMax s.busMax s.maxVal)
          (field fValue s.busValue s.value) (field fRev r s.rev) m).respond .ok false 0) := by
  obtain ⟨hmode, hbounds⟩ := not_or.mp h
  rw [← modeField_eq_none_iff (prior := s.rangeMode)] at hmode
  obtain ⟨m, hm⟩ := Option.ne_none_iff_exists'.mp hmode
  exact ⟨m, hm, exec_reconf_of_checks hm (Int.not_lt.mp hbounds)⟩

/-- Settles O44: such a RECONF is not rejected, and replaces field by field. -/
theorem reconfReplacesNamedFields : Obligations.ReconfReplacesNamedFields := by
  refine ⟨State.busesRead, fun fMode fRev fMax fMin fValue r mode s hmode hbounds => ?_⟩
  have hok : ¬ ReconfRejected fMode fMax fMin mode s :=
    not_or.mpr ⟨fun ⟨hf, h0⟩ => hmode hf h0, Int.not_lt.mpr hbounds⟩
  obtain ⟨m, hm, hexec⟩ := exec_reconf_of_not_rejected hok
  obtain ⟨hnamed, hkept⟩ := modeField_eq_some_iff.mp hm
  exact ⟨m, hnamed, hkept, hexec⟩

/-- Settles O45: RECONF is rejected by the two checks, and completes otherwise. -/
theorem reconfChecks : Obligations.ReconfChecks := by
  refine ⟨fun s => ⟨s.busesRead.min, s.busesRead.max⟩,
    fun fMode fRev fMax fMin fValue r mode s => ⟨fun h => exec_reconf_of_rejected h, fun h => ?_⟩⟩
  obtain ⟨m, -, hexec⟩ := exec_reconf_of_not_rejected (s := s) h
  exact ⟨_, hexec, rfl⟩

end Sys2Proof.Machine
end

section
/-! R8, R126, R133: the operations that are refused. -/

namespace Sys2Proof.Machine

theorem resolveStep_refused_iff {s : State} {st : Int} {why : Refusal} :
    resolveStep s st = .refused why ↔ st ≠ 0 ∧ newValue s st = .error why := by
  by_cases h0 : st = 0
  · simp [resolveStep, h0]
  · cases hnew : newValue s st <;> simp [resolveStep, h0, hnew]

theorem exec_edge_refused_iff {clk dt : Bool} {s : State} {why : Refusal} :
    exec (.edge clk dt) s = .refused why ↔
      s.edgeStep clk dt ≠ 0 ∧ newValue s (s.edgeStep clk dt) = .error why := by
  rw [exec_edge, resolveStep_refused_iff, newValue_commitFsm]

theorem fitsWidth_some_iff {w : Nat} {x : Int} : fitsWidth (some w) x = true ↔ InWidth w x :=
  fitsWidth_iff_inWidth.trans ⟨fun h => h w rfl, fun h _ hn => Option.some.inj hn ▸ h⟩

theorem not_fitsWidth_iff {w : Option Nat} {x : Int} :
    ¬ fitsWidth w x = true ↔ ∃ n, w = some n ∧ ¬ InWidth n x := by
  simp only [fitsWidth_iff_inWidth, not_forall, exists_prop]

/-- UNBOUNDED gives a result wherever it fits `W` (R121, R133). -/
theorem newValue_unbounded_error_iff {s : State} {st : Int} {why : Refusal} (hm : s.rangeMode = .unbounded) :
    newValue s st = .error why ↔
      why = .resultOutsideWidth ∧ ∃ w, s.cfg.width = some w ∧ ¬ InWidth w (s.value + st) := by
  rw [← not_fitsWidth_iff]
  by_cases h : fitsWidth s.cfg.width (s.value + st) = true <;>
    simp [newValue, hm, applyStep, stepUnbounded, h, eq_comm]

/-- Under the invariant only an UNBOUNDED step has no result (R133; log entry 7). -/
theorem newValue_error_iff {s : State} (hs : s.Inv) {st : Int} {why : Refusal} :
    newValue s st = .error why ↔
      why = .resultOutsideWidth ∧ s.rangeMode = .unbounded ∧
        ∃ w, s.cfg.width = some w ∧ ¬ InWidth w (s.value + st) := by
  cases hm : s.rangeMode with
  | unbounded => simpa only [true_and] using newValue_unbounded_error_iff hm
  | wrap => simp [newValue_wrap hs hm]
  | bounded => simp [newValue_bounded hs hm]

/-- Settles O7: EDGE is refused where its step has no result. -/
theorem finiteWidthRefusesOnlyUnboundedOverflow : Obligations.FiniteWidthRefusesOnlyUnboundedOverflow := by
  refine ⟨fun w x => fitsWidth_some_iff, fun x => rfl, fun clk dt s why hs => ?refused⟩
  case refused =>
    rw [exec_edge_refused_iff, newValue_error_iff hs]
    exact ⟨fun ⟨h0, hwhy, hm, hw⟩ => ⟨hwhy, hm, h0, hw⟩, fun ⟨hwhy, hm, h0, hw⟩ => ⟨h0, hwhy, hm, hw⟩⟩

/-- Settles O8: WRAP and BOUNDED give an EDGE with a step no result for inverted bounds. -/
theorem invertedBoundsStopEdge : Obligations.InvertedBoundsStopEdge := by
  intro clk dt s hb hm h0
  refine exec_edge_refused_iff.mpr ⟨h0, ?_⟩
  rw [newValue, applyStep_inverted hm hb]

/-- Every operation has an end, or is an EDGE that is refused. -/
theorem exec_next_or_edge_refused (i : Instr) (s : State) :
    (∃ t, exec i s = .next t) ∨
      ∃ clk dt why, i = .edge clk dt ∧ exec (.edge clk dt) s = .refused why := by
  cases i with
  | edge clk dt =>
    cases h : exec (.edge clk dt) s with
    | next t => exact .inl ⟨t, rfl⟩
    | fault r => exact nomatch r
    | refused why => exact .inr ⟨clk, dt, why, rfl, h⟩
  | rdval => exact .inl ⟨_, rfl⟩
  | reconf fMode fRev fMax fMin fValue r mode =>
    by_cases h : ReconfRejected fMode fMax fMin mode s
    · exact .inl ⟨_, exec_reconf_of_rejected h⟩
    · obtain ⟨m, -, hexec⟩ := exec_reconf_of_not_rejected h
      exact .inl ⟨_, hexec⟩
  | rstval => exact .inl ⟨_, rfl⟩
  | addl =>
    by_cases h : s.tableFull = true
    · exact .inl ⟨_, exec_addl_of_full h⟩
    · exact .inl ⟨_, exec_addl_of_room h⟩

/-- With unbounded `W` every result fits, so that no operation is refused (R133). -/
theorem exists_exec_next {i : Instr} {s : State} (hs : s.Inv) (hw : s.cfg.width = none) :
    ∃ t, exec i s = .next t := by
  obtain hnext | ⟨clk, dt, why, -, hrefused⟩ := exec_next_or_edge_refused i s
  · exact hnext
  · obtain ⟨-, hnew⟩ := exec_edge_refused_iff.mp hrefused
    obtain ⟨-, -, w, hsome, -⟩ := (newValue_error_iff hs).mp hnew
    simp [hw] at hsome

end Sys2Proof.Machine
end

section
/-! R60, R91, R166, R201, R221: one step of a busy block, of an idle one, and of one with a command. -/

namespace Sys2Proof.Machine

theorem step_of_idle_nil {s : State} (hidle : s.busy = false) (hcmd : s.cmdIn = []) : step s = .next s := by
  simp [step, hidle, hcmd]

theorem runCommand_of_decode_ok {s : State} {c : Command} {rest : List Command} {i : Instr}
    (h : decode c.hdr = .ok i) : runCommand s c rest = exec i (s.accept c rest) := by
  simp [runCommand, h]

/-- The step of an idle block that accepts the operation `i`. -/
theorem step_of_decode_ok {s : State} {c : Command} {rest : List Command} {i : Instr}
    (hidle : s.busy = false) (hcmd : s.cmdIn = c :: rest) (hdec : decode c.hdr = .ok i) :
    step s = exec i (s.accept c rest) := by
  rw [step_of_idle_cons hidle hcmd, runCommand_of_decode_ok hdec]

/-- Settles O13: the accepted command is decoded and executed. -/
theorem stepRunsDecodedCommand : Obligations.StepRunsDecodedCommand :=
  fun _ _ _ _ hidle hcmd hdec => step_of_decode_ok hidle hcmd hdec

/-- Settles O16: nothing is presented, so nothing happens. -/
theorem idleBlockKeepsItsState : Obligations.IdleBlockKeepsItsState :=
  fun _ hidle hcmd => step_of_idle_nil hidle hcmd

/-- Settles O6: the walk, the idle block and the refused header have a next state of their own, and no
operation is refused. -/
theorem unboundedWidthNeverRefuses : Obligations.UnboundedWidthNeverRefuses := by
  intro s hs hw
  cases hbusy : s.busy with
  | true => exact ⟨_, step_of_busy hbusy⟩
  | false =>
    cases hcmd : s.cmdIn with
    | nil => exact ⟨s, step_of_idle_nil hbusy hcmd⟩
    | cons c rest =>
      cases hdec : decode c.hdr with
      | error e => exact ⟨_, (step_of_idle_cons hbusy hcmd).trans (runCommand_of_decode_error hdec)⟩
      | ok i =>
        rw [step_of_decode_ok hbusy hcmd hdec]
        exact exists_exec_next (hs.accept c rest) hw

/-- Settles O15: a step of the walk writes `busy`, `disp_idx` and the channels alone. -/
theorem busyBlockHoldsCommands : Obligations.BusyBlockHoldsCommands :=
  fun s hbusy => ⟨dispatchStep s, step_of_busy hbusy, dispatchStep_cmdIn s, dispatchStep_bus s,
    dispatchStep_value s, dispatchStep_minVal s, dispatchStep_maxVal s, dispatchStep_rev s,
    dispatchStep_rangeMode s, dispatchStep_fsmState s, dispatchStep_lt s, dispatchStep_cfg s⟩

/-- Settles O48: RDVAL only responds, and a busy block only walks. -/
theorem rdvalReadsValue : Obligations.RdvalReadsValue :=
  ⟨fun _ => rfl, fun _ => rfl, fun s hbusy => ⟨_, step_of_busy hbusy, dispatchStep_cmdIn s⟩⟩

end Sys2Proof.Machine
end

section
/-! R33, R36: what EDGE leaves unchanged, and where it leaves `value`. -/

namespace Sys2Proof.Machine

/-- The registers and channels no EDGE writes (R33). -/
structure EdgeKeeps (s t : State) : Prop where
  minVal : t.minVal = s.minVal
  maxVal : t.maxVal = s.maxVal
  rev : t.rev = s.rev
  rangeMode : t.rangeMode = s.rangeMode
  lt : t.lt = s.lt
  cfg : t.cfg = s.cfg
  cmdIn : t.cmdIn = s.cmdIn
  bus : t.bus = s.bus
  answers : t.answers = s.answers
  notifyOut : t.notifyOut = s.notifyOut

theorem storeAndNotify_keeps (s : State) (new : Int) : EdgeKeeps s (storeAndNotify s new) := by
  constructor <;> simp

/-- An EDGE either has no step and only responds, or has one whose result it stores (R100, R106). -/
theorem exec_edge_cases {clk dt : Bool} {s t : State} (h : exec (.edge clk dt) s = .next t) :
    EdgeKeeps s t ∧
      ((s.edgeStep clk dt = 0 ∧ t.value = s.value ∧ t.busy = s.busy ∧ t.dispIdx = s.dispIdx ∧
          t.respOut = s.respOut ++ [⟨.ok, false, s.value, 0⟩]) ∨
       (s.edgeStep clk dt ≠ 0 ∧ ∃ new, newValue s (s.edgeStep clk dt) = .ok new ∧ EdgeStored s t new)) := by
  rw [exec_edge] at h
  obtain ⟨h0, rfl⟩ | ⟨h0, new, hnew, rfl⟩ := resolveStep_cases h
  · exact ⟨⟨rfl, rfl, rfl, rfl, rfl, rfl, rfl, rfl, rfl, rfl⟩, .inl ⟨h0, rfl, rfl, rfl, rfl⟩⟩
  · have hkeeps := storeAndNotify_keeps (s.commitFsm (s.edgeNext clk dt)) new
    exact ⟨{ hkeeps with },
      .inr ⟨h0, new, hnew, edgeStored_of_commitFsm (storeAndNotify_edgeStored _ new)⟩⟩

/-- A stored result is answered with at most one response, which carries it (R88). -/
theorem EdgeStored.respOut {s t : State} {new : Int} (h : EdgeStored s t new) :
    t.respOut = s.respOut ∨ ∃ r, t.respOut = s.respOut ++ [r] ∧ r.value = t.value := by
  by_cases hnew : new = s.value
  · obtain ⟨-, -, hresp⟩ := h.absorbed hnew
    exact .inr ⟨_, hresp, h.stored.symm⟩
  · by_cases hlt : s.lt = []
    · obtain ⟨-, hresp⟩ := h.nobody hnew hlt
      exact .inr ⟨_, hresp, h.stored.symm⟩
    · obtain ⟨-, -, hresp⟩ := h.dispatching hnew hlt
      exact .inl hresp

/-- Settles O34: an EDGE without a step only responds, and one with a step starts a dispatch only where it
changes `value`. -/
theorem edgeFrame : Obligations.EdgeFrame := by
  intro clk dt s t h
  obtain ⟨hk, hend⟩ := exec_edge_cases h
  refine ⟨⟨hk.minVal, hk.maxVal, hk.rev, hk.rangeMode, hk.lt, hk.cfg, hk.cmdIn, hk.bus, hk.answers,
    hk.notifyOut⟩, ?_⟩
  obtain ⟨-, hvalue, hbusy, hidx, hresp⟩ | ⟨h0, new, -, hstored⟩ := hend
  · exact ⟨fun _ => hvalue, fun _ => ⟨hbusy, hidx⟩, .inr ⟨_, hresp, hvalue.symm⟩⟩
  · refine ⟨fun hzero => absurd hzero h0, fun hsame => ?_, hstored.respOut⟩
    obtain ⟨hbusy, hidx, -⟩ := hstored.absorbed (hstored.stored.symm.trans hsame)
    exact ⟨hbusy, hidx⟩

/-- What WRAP and BOUNDED store lies within the bounds, whatever `value` was (R36 (c)). -/
theorem newValue_range {s : State} {st new : Int} (hm : s.rangeMode ≠ .unbounded)
    (h : newValue s st = .ok new) : s.minVal ≤ new ∧ new ≤ s.maxVal := by
  obtain ⟨happly, -⟩ := newValue_ok_iff.mp h
  by_cases hb : s.minVal ≤ s.maxVal
  · cases hmode : s.rangeMode with
    | unbounded => exact absurd hmode hm
    | wrap =>
      obtain rfl : stepWrap s.value st s.minVal s.maxVal = new := by simpa [applyStep, hmode, hb] using happly
      exact stepWrap_range s.value st hb
    | bounded =>
      obtain rfl : stepBounded s.value st s.minVal s.maxVal = new := by
        simpa [applyStep, hmode, hb] using happly
      exact stepBounded_range s.value st hb
  · rw [applyStep_inverted hm (Int.not_le.mp hb)] at happly
    cases happly

/-- Settles O35: with a step the stored result is in range, without one `value` stays where it was. -/
theorem edgeRestoresRange : Obligations.EdgeRestoresRange := by
  intro clk dt s t hm h
  obtain ⟨hk, ⟨h0, hvalue, -⟩ | ⟨h0, new, hnew, hstored⟩⟩ := exec_edge_cases h
  · have hsame : t.InRange ↔ s.InRange := by
      rw [State.InRange, State.InRange, hvalue, hk.minVal, hk.maxVal]
    exact ⟨hsame.mpr, fun hne => absurd h0 hne, fun _ => mt hsame.mp⟩
  · have hin : t.InRange := by
      rw [State.InRange, hstored.stored, hk.minVal, hk.maxVal]
      exact newValue_range hm hnew
    exact ⟨fun _ => hin, fun _ => hin, fun hzero => absurd hzero h0⟩

end Sys2Proof.Machine
end

section
/-! R22, R23, R25, R26, R28, R33: the frame of the operations other than EDGE, and of a whole step. -/

namespace Sys2Proof.Machine

/-- Settles O47: operation by operation, the writes of its one or two ends. -/
theorem otherOperationsFrame : Obligations.OtherOperationsFrame := by
  intro i s t hi h
  cases i with
  | edge clk dt => exact absurd rfl (hi clk dt)
  | rdval =>
    obtain rfl := Host.Outcome.next.inj h
    simp
  | reconf fMode fRev fMax fMin fValue r mode =>
    obtain rfl | ⟨m, -, -, rfl⟩ := execReconf_cases h
    · simp [BlockFault.changed]
    · simp
  | rstval =>
    obtain rfl := Host.Outcome.next.inj h
    simp
  | addl =>
    obtain ⟨-, rfl⟩ | ⟨-, rfl⟩ := execAddl_cases h
    · simp [BlockFault.changed]
    · simp

/-! ### The listener table -/

/-- Only ADDL writes the listener table, and only at its end (R28, R33, R54). -/
theorem exec_lt {i : Instr} {s t : State} (h : exec i s = .next t) :
    t.lt = s.lt ∨ (i = .addl ∧ t.lt = s.lt ++ [s.bus.opHandle]) := by
  cases i with
  | edge clk dt => exact .inl (exec_edge_cases h).1.lt
  | addl =>
    obtain ⟨-, rfl⟩ | ⟨-, rfl⟩ := execAddl_cases h
    · exact .inl rfl
    · exact .inr ⟨rfl, rfl⟩
  | rdval | reconf | rstval =>
    obtain ⟨-, hlt, -⟩ := otherOperationsFrame _ s t (by simp) h
    exact .inl (hlt (by simp))

/-- Settles O51: only an operation can write the table, and among them ADDL alone. -/
theorem listenerTableOnlyGrows : Obligations.ListenerTableOnlyGrows := by
  intro s t h
  obtain ⟨-, rfl⟩ | ⟨-, -, rfl⟩ | ⟨c, rest, i, -, hcmd, hdec, hexec⟩ | ⟨c, rest, e, -, -, -, rfl⟩ := step_cases h
  · exact .inl (dispatchStep_lt s)
  · exact .inl rfl
  · obtain hlt | ⟨rfl, hlt⟩ := exec_lt hexec
    · exact .inl hlt
    · exact .inr ⟨c, rest, hcmd, hdec, hlt⟩
  · exact .inl rfl

/-! ### The configuration -/

/-- The bounds, `rev` and `range_mode` are the same in two states. -/
def SameConfiguration (s t : State) : Prop :=
  t.minVal = s.minVal ∧ t.maxVal = s.maxVal ∧ t.rev = s.rev ∧ t.rangeMode = s.rangeMode

/-- Of the five operations only RECONF writes the configuration (R33). -/
theorem exec_configuration_cases {i : Instr} {s t : State} (h : exec i s = .next t) :
    SameConfiguration s t ∨
      ∃ fMode fRev fMax fMin fValue r mode, i = .reconf fMode fRev fMax fMin fValue r mode := by
  cases i with
  | edge clk dt =>
    obtain ⟨hk, -⟩ := exec_edge_cases h
    exact .inl ⟨hk.minVal, hk.maxVal, hk.rev, hk.rangeMode⟩
  | reconf fMode fRev fMax fMin fValue r mode =>
    exact .inr ⟨fMode, fRev, fMax, fMin, fValue, r, mode, rfl⟩
  | rdval | rstval | addl =>
    obtain ⟨-, -, hconfig, -⟩ := otherOperationsFrame _ s t (by simp) h
    obtain ⟨hmin, hmax, hrev, hmode, -⟩ := hconfig (by simp)
    exact .inl ⟨hmin, hmax, hrev, hmode⟩

/-- A field that ends up changed was named (R84, R141). -/
theorem named_of_field_ne {α : Type} {named : Bool} {operand prior : α}
    (h : field named operand prior ≠ prior) : named = true := by
  cases named with
  | false => exact absurd (field_false operand prior) h
  | true => rfl

/-- A RECONF names each register of the configuration that it changes (R141). -/
theorem exec_reconf_names {fMode fRev fMax fMin fValue r : Bool} {mode : ModeBits} {s t : State}
    (h : exec (.reconf fMode fRev fMax fMin fValue r mode) s = .next t) :
    (t.minVal ≠ s.minVal → fMin = true) ∧ (t.maxVal ≠ s.maxVal → fMax = true) ∧
      (t.rev ≠ s.rev → fRev = true) ∧ (t.rangeMode ≠ s.rangeMode → fMode = true) := by
  obtain rfl | ⟨m, hm, -, rfl⟩ := execReconf_cases h
  · exact ⟨absurd rfl, absurd rfl, absurd rfl, absurd rfl⟩
  · obtain ⟨-, hkept⟩ := modeField_eq_some_iff.mp hm
    exact ⟨named_of_field_ne, named_of_field_ne, named_of_field_ne,
      fun hne => Bool.of_not_eq_false (mt hkept hne)⟩

/-- A step leaves the configuration as it is, or runs a RECONF (R33). -/
theorem step_configuration_cases {s t : State} (h : step s = .next t) :
    SameConfiguration s t ∨
      ∃ c rest fMode fRev fMax fMin fValue r mode, s.busy = false ∧ s.cmdIn = c :: rest ∧
        decode c.hdr = .ok (.reconf fMode fRev fMax fMin fValue r mode) ∧
        exec (.reconf fMode fRev fMax fMin fValue r mode) (s.accept c rest) = .next t := by
  obtain ⟨-, rfl⟩ | ⟨-, -, rfl⟩ | ⟨c, rest, i, hidle, hcmd, hdec, hexec⟩ | ⟨c, rest, e, -, -, -, rfl⟩ :=
    step_cases h
  · exact .inl ⟨dispatchStep_minVal s, dispatchStep_maxVal s, dispatchStep_rev s, dispatchStep_rangeMode s⟩
  · exact .inl ⟨rfl, rfl, rfl, rfl⟩
  · obtain hsame | ⟨fMode, fRev, fMax, fMin, fValue, r, mode, rfl⟩ := exec_configuration_cases hexec
    · exact .inl hsame
    · exact .inr ⟨c, rest, fMode, fRev, fMax, fMin, fValue, r, mode, hidle, hcmd, hdec, hexec⟩
  · exact .inl ⟨rfl, rfl, rfl, rfl⟩

/-- Settles O52: such a step is one of a RECONF, which names what it changes. -/
theorem onlyReconfChangesConfiguration : Obligations.OnlyReconfChangesConfiguration := by
  intro s t h hchange
  obtain ⟨hmin, hmax, hrev, hmode⟩ |
    ⟨c, rest, fMode, fRev, fMax, fMin, fValue, r, mode, hidle, hcmd, hdec, hexec⟩ := step_configuration_cases h
  · simp [hmin, hmax, hrev, hmode] at hchange
  · exact ⟨c, rest, fMode, fRev, fMax, fMin, fValue, r, mode, hidle, hcmd, hdec,
      exec_reconf_names (s := s.accept c rest) hexec⟩

end Sys2Proof.Machine
end

section
/-! R27, R39: `fsm_state` is seen by EDGE alone. -/

namespace Sys2Proof.Machine

/-- What RECONF refuses does not depend on the automaton (R142). -/
theorem reconfRejected_commitFsm {fMode fMax fMin : Bool} {mode : ModeBits} {s : State} (f : FsmState) :
    ReconfRejected fMode fMax fMin mode (s.commitFsm f) ↔ ReconfRejected fMode fMax fMin mode s := Iff.rfl

/-- Another `fsm_state` leaves every operation but EDGE an end, which looks the same from outside. -/
theorem exec_commitFsm_observe {i : Instr} {s : State} (hi : ∀ clk dt, i ≠ .edge clk dt) (f : FsmState) :
    ∃ t u, exec i s = .next t ∧ exec i (s.commitFsm f) = .next u ∧ u.observe = t.observe := by
  cases i with
  | edge clk dt => exact absurd rfl (hi clk dt)
  | rdval => exact ⟨_, _, rfl, rfl, rfl⟩
  | reconf fMode fRev fMax fMin fValue r mode =>
    by_cases h : ReconfRejected fMode fMax fMin mode s
    · exact ⟨_, _, exec_reconf_of_rejected h,
        exec_reconf_of_rejected ((reconfRejected_commitFsm f).mpr h), rfl⟩
    · obtain ⟨m, hm, hexec⟩ := exec_reconf_of_not_rejected h
      obtain ⟨m', hm', hexec'⟩ := exec_reconf_of_not_rejected (mt (reconfRejected_commitFsm f).mp h)
      obtain rfl : m = m' := Option.some.inj (hm.symm.trans hm')
      exact ⟨_, _, hexec, hexec', rfl⟩
  | rstval => exact ⟨_, _, rfl, rfl, rfl⟩
  | addl =>
    by_cases h : s.tableFull = true
    · exact ⟨_, _, exec_addl_of_full h, exec_addl_of_full (s := s.commitFsm f) h, rfl⟩
    · exact ⟨_, _, exec_addl_of_room h, exec_addl_of_room (s := s.commitFsm f) h, rfl⟩

/-- Settles O59: the two ends of the operation look the same. -/
theorem automatonHiddenFromOtherOperations : Obligations.AutomatonHiddenFromOtherOperations := by
  intro i s t f hi ht
  obtain ⟨t', u, ht', hu, hlook⟩ := exec_commitFsm_observe (s := s) hi f
  obtain rfl := Host.Outcome.next.inj (ht.symm.trans ht')
  exact ⟨u, hu, hlook⟩

end Sys2Proof.Machine
end

section
/-! R165, R166, R172: the walk at a listener that has answered `done`, and at one that has not answered. -/

namespace Sys2Proof.Machine

/-- The listener at `disp_idx` has answered `done` (R166). -/
theorem dispatchStep_done {s : State} {h : ListenerId} {rest : List Answer}
    (hlt : s.lt[s.dispIdx]? = some h) (hans : s.answers = .done :: rest) :
    dispatchStep s = continueWalk ((s.recordInvocation h .done rest).dispatchAt (s.dispIdx + 1)) := by
  simp [dispatchStep, hlt, hans]

/-- The listener at `disp_idx` has not answered (R166; U5). -/
theorem dispatchStep_unanswered {s : State} {h : ListenerId} (hlt : s.lt[s.dispIdx]? = some h)
    (hans : s.answers = []) : dispatchStep s = s := by
  simp [dispatchStep, hlt, hans]

/-- Settles O53: after the invocation the `while` test of NOTIFY goes on, or ends the walk. -/
theorem answeredListenerMovesWalkOn : Obligations.AnsweredListenerMovesWalkOn := by
  intro s h rest hbusy hlt hans
  rw [step_of_busy hbusy, dispatchStep_done hlt hans]
  refine ⟨fun hmore => ?goesOn, fun hlast => ?ends⟩
  case goesOn =>
    rw [continueWalk_within hmore, hbusy]
    rfl
  case ends =>
    rw [continueWalk_ended hlast.ge]
    rfl

/-- Settles O55: nothing happens, and the block stays busy at its listener. -/
theorem unansweredListenerHoldsBlock : Obligations.UnansweredListenerHoldsBlock := by
  intro s h hbusy hlt hans
  refine ⟨?_, ?_, ?_⟩
  · rw [step_of_busy hbusy, dispatchStep_unanswered hlt hans]
  · simp [State.notifyChannel, hbusy, hlt]
  · simp [State.accepting, hbusy]

end Sys2Proof.Machine
end

section
/-! R38, R88, R89: the records of the response and notify channels are only added to. A step of a block with
an older history in front of its records is the same step with that history in front. -/

namespace Sys2Proof.Machine

/-- `s` with older responses and invocations in front of its own. -/
def State.after (rs : List Response) (ns : List Invocation) (s : State) : State :=
  { s with respOut := rs ++ s.respOut, notifyOut := ns ++ s.notifyOut }

/-- `s` with empty records. -/
def State.forget (s : State) : State := { s with respOut := [], notifyOut := [] }

/-- The next state of an outcome, with older records in front. -/
def outcomeAfter (rs : List Response) (ns : List Invocation) :
    Host.Outcome State Fault Refusal → Host.Outcome State Fault Refusal
  | .next t => .next (t.after rs ns)
  | .fault r => .fault r
  | .refused r => .refused r

/-- Any records are older ones in front of empty ones. -/
theorem after_forget (rs : List Response) (ns : List Invocation) (s : State) :
    s.forget.after rs ns = { s with respOut := rs, notifyOut := ns } := by
  simp [State.after, State.forget]

theorem outcomeAfter_eq_next {rs : List Response} {ns : List Invocation}
    {o : Host.Outcome State Fault Refusal} {t : State} (h : outcomeAfter rs ns o = .next t) :
    ∃ t0, o = .next t0 ∧ t = t0.after rs ns := by
  cases o with
  | next t0 => exact ⟨t0, rfl, (Host.Outcome.next.inj h).symm⟩
  | fault r => cases h
  | refused r => cases h

/-- With no listener at `disp_idx` the `while` test ends the walk (log entry 13). -/
theorem dispatchStep_nobody {s : State} (hlt : s.lt[s.dispIdx]? = none) :
    dispatchStep s = continueWalk s := by
  simp [dispatchStep, hlt]

section
variable (rs : List Response) (ns : List Invocation) (s : State)

/-! ### The updates of the state -/

theorem after_respond (st : Status) (changed : Bool) (info : Nat) :
    (s.after rs ns).respond st changed info = (s.respond st changed info).after rs ns := by
  simp [State.after, State.respond]

theorem after_raise (f : BlockFault) : (s.after rs ns).raise f = (s.raise f).after rs ns :=
  after_respond rs ns s f.status f.changed f.info

theorem after_recordInvocation (h : ListenerId) (a : Answer) (rest : List Answer) :
    (s.after rs ns).recordInvocation h a rest = (s.recordInvocation h a rest).after rs ns := by
  simp [State.after, State.recordInvocation]

/-! ### The walk -/

theorem after_continueWalk : continueWalk (s.after rs ns) = (continueWalk s).after rs ns := by
  by_cases h : s.dispIdx < s.lcount
  · rw [continueWalk_within h, continueWalk_within (s := s.after rs ns) h]
  · have hge : s.lcount ≤ s.dispIdx := Nat.le_of_not_lt h
    rw [continueWalk_ended hge, continueWalk_ended (s := s.after rs ns) hge]
    exact after_respond rs ns s.release .ok true 0

theorem after_dispatchStep : dispatchStep (s.after rs ns) = (dispatchStep s).after rs ns := by
  cases hlt : s.lt[s.dispIdx]? with
  | none =>
    rw [dispatchStep_nobody hlt, dispatchStep_nobody (s := s.after rs ns) hlt, after_continueWalk]
  | some h =>
    have hlt' : (s.after rs ns).lt[(s.after rs ns).dispIdx]? = some h := hlt
    cases hans : s.answers with
    | nil => rw [dispatchStep_unanswered hlt hans, dispatchStep_unanswered hlt' hans]
    | cons a rest =>
      cases a with
      | done =>
        rw [dispatchStep_done hlt hans, dispatchStep_done hlt' hans, after_recordInvocation]
        exact after_continueWalk rs ns ((s.recordInvocation h .done rest).dispatchAt (s.dispIdx + 1))
      | fault =>
        rw [dispatchStep_fault hlt hans, dispatchStep_fault hlt' hans, after_recordInvocation]
        exact after_raise rs ns (s.recordInvocation h .fault rest).release (.listenerFault s.dispIdx)

/-! ### The operations -/

theorem after_storeAndNotify (new : Int) :
    storeAndNotify (s.after rs ns) new = (storeAndNotify s new).after rs ns := by
  by_cases h : new = s.value
  · rw [storeAndNotify_absorbed h, storeAndNotify_absorbed (s := s.after rs ns) h]
    exact after_respond rs ns (s.storeValue new) .ok false 0
  · rw [storeAndNotify_changed h, storeAndNotify_changed (s := s.after rs ns) h]
    exact after_continueWalk rs ns ((s.storeValue new).dispatchAt 0)

theorem after_resolveStep (st : Int) :
    resolveStep (s.after rs ns) st = outcomeAfter rs ns (resolveStep s st) := by
  by_cases h0 : st = 0
  · subst h0
    rw [resolveStep_zero, resolveStep_zero, after_respond]
    rfl
  · cases hnew : newValue s st with
    | ok new =>
      rw [resolveStep_ok h0 hnew, resolveStep_ok (s := s.after rs ns) h0 hnew, after_storeAndNotify]
      rfl
    | error why =>
      rw [resolveStep_refused_iff.mpr ⟨h0, hnew⟩,
        (resolveStep_refused_iff (s := s.after rs ns)).mpr ⟨h0, hnew⟩]
      rfl

theorem after_exec_reconf (fMode fRev fMax fMin fValue r : Bool) (mode : ModeBits) :
    exec (.reconf fMode fRev fMax fMin fValue r mode) (s.after rs ns) =
      outcomeAfter rs ns (exec (.reconf fMode fRev fMax fMin fValue r mode) s) := by
  by_cases h : ReconfRejected fMode fMax fMin mode s
  · rw [exec_reconf_of_rejected h, exec_reconf_of_rejected (s := s.after rs ns) h, after_raise]
    rfl
  · obtain ⟨m, hm, hexec⟩ := exec_reconf_of_not_rejected h
    obtain ⟨m', hm', hexec'⟩ := exec_reconf_of_not_rejected (s := s.after rs ns) h
    obtain rfl : m = m' := Option.some.inj (hm.symm.trans hm')
    rw [hexec, hexec']
    exact congrArg Host.Outcome.next (after_respond rs ns (s.reconfigure _ _ _ _ m) .ok false 0)

theorem after_exec (i : Instr) : exec i (s.after rs ns) = outcomeAfter rs ns (exec i s) := by
  cases i with
  | edge clk dt => exact after_resolveStep rs ns (s.commitFsm (s.edgeNext clk dt)) (s.edgeStep clk dt)
  | rdval => exact congrArg Host.Outcome.next (after_respond rs ns s .ok false 0)
  | reconf fMode fRev fMax fMin fValue r mode =>
    exact after_exec_reconf rs ns s fMode fRev fMax fMin fValue r mode
  | rstval => exact congrArg Host.Outcome.next (after_respond rs ns (s.storeValue 0) .ok false 0)
  | addl =>
    by_cases h : s.tableFull = true
    · rw [exec_addl_of_full h, exec_addl_of_full (s := s.after rs ns) h, after_raise]
      rfl
    · rw [exec_addl_of_room h, exec_addl_of_room (s := s.after rs ns) h]
      exact congrArg Host.Outcome.next
        (after_respond rs ns (s.listenerAppend s.bus.opHandle) .ok false 0)

theorem after_runCommand (c : Command) (rest : List Command) :
    runCommand (s.after rs ns) c rest = outcomeAfter rs ns (runCommand s c rest) := by
  cases hdec : decode c.hdr with
  | ok i =>
    rw [runCommand_of_decode_ok hdec, runCommand_of_decode_ok hdec]
    exact after_exec rs ns (s.accept c rest) i
  | error e =>
    rw [runCommand_of_decode_error hdec, runCommand_of_decode_error hdec]
    exact congrArg Host.Outcome.next (after_raise rs ns (s.accept c rest) .illegalCommand)

/-- A step reads no record (R38). -/
theorem after_step : step (s.after rs ns) = outcomeAfter rs ns (step s) := by
  cases hbusy : s.busy with
  | true =>
    rw [step_of_busy hbusy, step_of_busy (s := s.after rs ns) hbusy, after_dispatchStep]
    rfl
  | false =>
    cases hcmd : s.cmdIn with
    | nil =>
      rw [step_of_idle_nil hbusy hcmd, step_of_idle_nil (s := s.after rs ns) hbusy hcmd]
      rfl
    | cons c rest =>
      rw [step_of_idle_cons hbusy hcmd, step_of_idle_cons (s := s.after rs ns) hbusy hcmd]
      exact after_runCommand rs ns s c rest

end

/-- Settles O58: what the step adds is what it leaves in empty records. -/
theorem channelRecordsAreNeverRead : Obligations.ChannelRecordsAreNeverRead := by
  intro s t rs ns h
  have hself : s = s.forget.after s.respOut s.notifyOut := (after_forget s.respOut s.notifyOut s).symm
  rw [hself, after_step] at h
  obtain ⟨t0, hstep, rfl⟩ := outcomeAfter_eq_next h
  refine ⟨t0.respOut, t0.notifyOut, rfl, rfl, ?_⟩
  rw [← after_forget rs ns s, after_step, hstep]
  rfl

end Sys2Proof.Machine
end

section
/-! R111, R113 to R115: the two paths through the automaton. A walk that ends in a set of states has a last
entry into the set; the detent's three states are found by the last entries into the shrinking sets
`{1, 2, 3}`, `{2, 3}`, `{3}`. -/

namespace Sys2Proof.Machine

/-- Settles O25: each part is a finite table. -/
theorem pathsMeetOnlyAtStart : Obligations.PathsMeetOnlyAtStart :=
  ⟨by decide, by decide, by decide, by decide⟩

theorem fsmAfter_append (f : FsmState) (as bs : List Code) :
    fsmAfter f (as ++ bs) = fsmAfter (fsmAfter f as) bs := List.foldl_append

theorem fsmVisits_append (f : FsmState) (as bs : List Code) :
    fsmVisits f (as ++ bs) = fsmVisits f as ++ fsmVisits (fsmAfter f as) bs := by
  induction as generalizing f with
  | nil => rfl
  | cons a as ih => exact congrArg (fsmNext f a :: ·) (ih (fsmNext f a))

/-- A walk that visits only `P`, from a state of `P`, ends in `P`. -/
theorem fsmAfter_mem {P : Finset FsmState} {f : FsmState} {codes : List Code} (hf : f ∈ P)
    (h : ∀ g ∈ fsmVisits f codes, g ∈ P) : fsmAfter f codes ∈ P := by
  induction codes generalizing f with
  | nil => exact hf
  | cons c cs ih =>
    obtain ⟨hc, hcs⟩ := List.forall_mem_cons.mp h
    exact ih hc hcs

/-- The last entry into `P` of a walk that begins outside `P` and ends in it: afterwards it visits `P`
only. -/
theorem exists_last_entry {P : Finset FsmState} {f : FsmState} (hf : f ∉ P) {codes : List Code}
    (h : fsmAfter f codes ∈ P) :
    ∃ a c b, codes = a ++ c :: b ∧ fsmAfter f a ∉ P ∧ fsmNext (fsmAfter f a) c ∈ P ∧
      ∀ g ∈ fsmVisits (fsmNext (fsmAfter f a) c) b, g ∈ P := by
  induction codes using List.reverseRecOn with
  | nil => exact absurd h hf
  | append_singleton cs c ih =>
    have hlast : fsmNext (fsmAfter f cs) c ∈ P := by rwa [fsmAfter_append] at h
    by_cases hcs : fsmAfter f cs ∈ P
    · obtain ⟨a, e, b, rfl, ha, he, hb⟩ := ih hcs
      refine ⟨a, e, b ++ [c], by simp, ha, he, fun g hg => ?_⟩
      rw [fsmVisits_append, List.mem_append] at hg
      obtain hg | hg := hg
      · exact hb g hg
      · rw [fsmAfter_append] at hlast
        rwa [List.mem_singleton.mp hg]
    · exact ⟨cs, c, [], rfl, hcs, hlast, by simp [fsmVisits]⟩

/-- Within `Q` the part `P` is entered from `f` alone, by the code `k` alone, and at `g`. -/
structure OneWayIn (Q P : Finset FsmState) (f g : FsmState) (k : Code) : Prop where
  inside : f ∈ Q
  outside : f ∉ P
  entry : ∀ x ∈ Q, ∀ c, x ∉ P → fsmNext x c ∈ P → x = f ∧ c = k
  arrives : fsmNext f k = g
  arrived : g ∈ P

/-- A walk within `Q` from `f` that ends in `P` comes back to `f`, takes the one way in, and stays in `P`. -/
theorem OneWayIn.exists_cut {Q P : Finset FsmState} {f g : FsmState} {k : Code} (w : OneWayIn Q P f g k)
    {codes : List Code} (hQ : ∀ x ∈ fsmVisits f codes, x ∈ Q) (h : fsmAfter f codes ∈ P) :
    ∃ a b, codes = a ++ k :: b ∧ fsmAfter f a = f ∧ fsmAfter g b = fsmAfter f codes ∧
      ∀ x ∈ fsmVisits g b, x ∈ P := by
  obtain ⟨a, c, b, rfl, hout, hin, hstay⟩ := exists_last_entry w.outside h
  have hQa : ∀ x ∈ fsmVisits f a, x ∈ Q := fun x hx => hQ x (by simp [fsmVisits_append, hx])
  obtain ⟨hback, rfl⟩ := w.entry _ (fsmAfter_mem w.inside hQa) c hout hin
  rw [hback, w.arrives] at hstay
  have hend : fsmAfter f (a ++ c :: b) = fsmAfter g b := by
    rw [fsmAfter_append, hback, ← w.arrives]
    rfl
  exact ⟨a, b, rfl, hback, hend.symm, hstay⟩

/-- A path of the automaton: from START into its three states, and onwards through them, there is one way
(R107). -/
structure DetentPath (f1 f2 f3 : FsmState) (k1 k2 k3 : Code) : Prop where
  toFirst : OneWayIn Finset.univ {f1, f2, f3} stSTART f1 k1
  toSecond : OneWayIn {f1, f2, f3} {f2, f3} f1 f2 k2
  toThird : OneWayIn {f2, f3} {f3} f2 f3 k3

theorem detentPath_clockwise : DetentPath stCW1 stCW2 stCW3 0b10#2 0b00#2 0b01#2 := by
  refine ⟨?_, ?_, ?_⟩ <;> constructor <;> decide

theorem detentPath_counterClockwise : DetentPath stCCW1 stCCW2 stCCW3 0b01#2 0b00#2 0b10#2 := by
  refine ⟨?_, ?_, ?_⟩ <;> constructor <;> decide

/-- A walk from START to the third state of a path: the three ways in cut it in four. -/
theorem DetentPath.exists_cut {f1 f2 f3 : FsmState} {k1 k2 k3 : Code} (p : DetentPath f1 f2 f3 k1 k2 k3)
    {codes : List Code} (h : fsmAfter stSTART codes = f3) :
    ∃ a b c d, codes = a ++ k1 :: (b ++ k2 :: (c ++ k3 :: d)) ∧
      fsmAfter stSTART a = stSTART ∧ fsmAfter f1 b = f1 ∧ fsmAfter f2 c = f2 ∧ fsmAfter f3 d = f3 ∧
      stSTART ∉ fsmVisits f1 (b ++ k2 :: (c ++ k3 :: d)) := by
  obtain ⟨a, w1, rfl, ha, hend1, hstay1⟩ :=
    p.toFirst.exists_cut (codes := codes) (fun x _ => Finset.mem_univ x) (by simp [h])
  rw [h] at hend1
  obtain ⟨b, w2, rfl, hb, hend2, hstay2⟩ := p.toSecond.exists_cut hstay1 (by simp [hend1])
  rw [hend1] at hend2
  obtain ⟨c, d, rfl, hc, hend3, -⟩ := p.toThird.exists_cut hstay2 (by simp [hend2])
  rw [hend2] at hend3
  exact ⟨a, b, c, d, rfl, ha, hb, hc, hend3, fun hstart => p.toFirst.outside (hstay1 _ hstart)⟩

/-- Settles O24: the two paths are the same argument. -/
theorem detentVisitsAllThreeStates : Obligations.DetentVisitsAllThreeStates :=
  ⟨fun _ h => detentPath_clockwise.exists_cut h, fun _ h => detentPath_counterClockwise.exists_cut h⟩

end Sys2Proof.Machine
end

section
/-! R109, R110: a detent as commands of an idle block. EDGEs whose codes emit nothing move the automaton and
respond; the code that emits is the one EDGE that stores a result. -/

namespace Sys2Proof.Machine

/-- A run takes its first step first. -/
theorem run_succ_of_step {s t : State} (h : step s = .next t) (n : Nat) :
    core.run (n + 1) s = core.run n t := by
  have hcore : core.step s = .next t := h
  simp only [Host.Core.run, hcore]

/-! ### EDGE as a step of the block -/

/-- The step of an EDGE is that of the direction emitted, inverted by `rev` (R104, R105). -/
theorem edgeStep_eq (s : State) (clk dt : Bool) :
    s.edgeStep clk dt = stepOfDirection (fsmEmits s.fsmState (codeOf clk dt)) * dsign s.rev := rfl

/-- An EDGE as it is presented: the two line levels, and what stands on the buses. -/
structure EdgeInput where
  clk : Bool
  dt : Bool
  ops : Operands

/-- The command of that EDGE (R83). -/
def EdgeInput.command (e : EdgeInput) : Command := ⟨encode (.edge e.clk e.dt), e.ops⟩

/-- The code of that EDGE (R70). -/
def EdgeInput.code (e : EdgeInput) : Code := codeOf e.clk e.dt

/-- `s` after EDGEs that emitted nothing, along `codes`, the last of them on the buses `b` (R106). -/
def State.movedSilently (s : State) (codes : List Code) (b : Operands) (rest : List Command) : State :=
  { s with
    cmdIn := rest, bus := b, fsmState := fsmAfter s.fsmState codes,
    respOut := s.respOut ++ List.replicate codes.length ⟨.ok, false, s.value, 0⟩ }

/-- One EDGE that emits nothing (R106). -/
theorem step_silent_edge {s : State} {e : EdgeInput} {rest : List Command} (hidle : s.busy = false)
    (hcmd : s.cmdIn = e.command :: rest) (hsilent : fsmEmits s.fsmState e.code = 0#8) :
    step s = .next (s.movedSilently [e.code] e.ops rest) := by
  have h0 : s.edgeStep e.clk e.dt = 0 := by
    rw [edgeStep_eq, ← EdgeInput.code, hsilent, stepOfDirection_zero, Int.zero_mul]
  rw [step_of_decode_ok hidle hcmd (decode_encode _)]
  exact edgeWithoutStepMovesOnlyAutomaton _ _ (s.accept e.command rest) h0

/-- Several EDGEs that emit nothing. -/
theorem run_silent_edges {s : State} {es : List EdgeInput} {rest : List Command} (hidle : s.busy = false)
    (hcmd : s.cmdIn = es.map EdgeInput.command ++ rest)
    (hsilent : ∀ d ∈ fsmEmissions s.fsmState (es.map EdgeInput.code), d = 0#8) :
    ∃ b, core.run es.length s = .next (s.movedSilently (es.map EdgeInput.code) b rest) := by
  induction es generalizing s with
  | nil =>
    obtain rfl : s.cmdIn = rest := hcmd
    exact ⟨s.bus, by simp [State.movedSilently, fsmAfter, Host.Core.run]⟩
  | cons e es ih =>
    obtain ⟨hfirst, hothers⟩ := List.forall_mem_cons.mp hsilent
    have hstep := step_silent_edge hidle hcmd hfirst
    obtain ⟨b, hrun⟩ := ih (s := s.movedSilently [e.code] e.ops _) hidle rfl hothers
    refine ⟨b, (run_succ_of_step hstep es.length).trans (hrun.trans ?_)⟩
    simp [State.movedSilently, fsmAfter, List.replicate_succ]

/-- One EDGE whose step has a result: it is stored, and nothing but `fsm_state`, `value`, the dispatch and
the channels is written (R100). -/
theorem step_stored_edge {s : State} {e : EdgeInput} {rest : List Command} {new : Int}
    (hidle : s.busy = false) (hcmd : s.cmdIn = e.command :: rest) (h0 : s.edgeStep e.clk e.dt ≠ 0)
    (hnew : newValue s (s.edgeStep e.clk e.dt) = .ok new) :
    ∃ t, step s = .next t ∧ EdgeStored s t new ∧ EdgeKeeps (s.accept e.command rest) t ∧
      t.fsmState = fsmNext s.fsmState e.code := by
  obtain ⟨t, hexec, hstored, hfsm⟩ := exec_edge_of_newValue (s := s.accept e.command rest) h0 hnew
  obtain ⟨hkeeps, -⟩ := exec_edge_cases hexec
  exact ⟨t, (step_of_decode_ok hidle hcmd (decode_encode _)).trans hexec,
    ⟨hstored.stored, hstored.absorbed, hstored.nobody, hstored.dispatching⟩, hkeeps, hfsm⟩

/-! ### The detent -/

/-- The first three EDGEs of a detent (R109, R110), on the given buses. -/
def detentInputs (clockwise : Bool) (o1 o2 o3 : Operands) : List EdgeInput :=
  if clockwise then [⟨true, false, o1⟩, ⟨false, false, o2⟩, ⟨false, true, o3⟩]
  else [⟨false, true, o1⟩, ⟨false, false, o2⟩, ⟨true, false, o3⟩]

/-- The codes of those EDGEs (R109, R110). -/
def detentCodes (clockwise : Bool) : List Code :=
  if clockwise then [0b10#2, 0b00#2, 0b01#2] else [0b01#2, 0b00#2, 0b10#2]

theorem detentInputs_code (clockwise : Bool) (o1 o2 o3 : Operands) :
    (detentInputs clockwise o1 o2 o3).map EdgeInput.code = detentCodes clockwise := by
  cases clockwise with
  | false =>
    exact (by decide : [codeOf false true, codeOf false false, codeOf true false] = detentCodes false)
  | true =>
    exact (by decide : [codeOf true false, codeOf false false, codeOf false true] = detentCodes true)

/-- The four headers of EDGE (R83). -/
theorem encode_edge_words :
    encode (.edge false false) = 0x2000#16 ∧ encode (.edge false true) = 0x2001#16 ∧
    encode (.edge true false) = 0x2002#16 ∧ encode (.edge true true) = 0x2003#16 := by
  decide

theorem detentCodes_silent (clockwise : Bool) :
    ∀ d ∈ fsmEmissions stSTART (detentCodes clockwise), d = 0#8 := by
  decide +revert

/-- The fourth code of a detent emits its direction (R107). -/
theorem detentCodes_emits (clockwise : Bool) :
    fsmEmits (fsmAfter stSTART (detentCodes clockwise)) (codeOf true true) =
      if clockwise then dirCW else dirCCW := by
  decide +revert

theorem detentCodes_back (clockwise : Bool) :
    fsmNext (fsmAfter stSTART (detentCodes clockwise)) (codeOf true true) = stSTART := by
  decide +revert

theorem detent_step_ne_zero (clockwise rev : Bool) :
    (if clockwise then (1 : Int) else -1) * dsign rev ≠ 0 := by
  decide +revert

/-- The first three EDGEs of a detent emit nothing (R109, R110). -/
theorem run_detentInputs {s : State} {clockwise : Bool} {o1 o2 o3 : Operands} {rest : List Command}
    (hidle : s.busy = false) (hstart : s.fsmState = stSTART)
    (hcmd : s.cmdIn = (detentInputs clockwise o1 o2 o3).map EdgeInput.command ++ rest) :
    ∃ b, core.run 3 s = .next (s.movedSilently (detentCodes clockwise) b rest) := by
  have hsilent := detentCodes_silent clockwise
  rw [← hstart, ← detentInputs_code clockwise o1 o2 o3] at hsilent
  have hlen : (detentInputs clockwise o1 o2 o3).length = 3 := by
    cases clockwise <;> rfl
  rw [← hlen, ← detentInputs_code clockwise o1 o2 o3]
  exact run_silent_edges hidle hcmd hsilent

/-- The fourth EDGE of a detent steps by the detent's direction, and leads back to START (R109, R110). -/
theorem step_detent_end {s : State} {clockwise : Bool} {o4 : Operands} {rest : List Command} {new : Int}
    (hidle : s.busy = false) (hpath : s.fsmState = fsmAfter stSTART (detentCodes clockwise))
    (hcmd : s.cmdIn = EdgeInput.command ⟨true, true, o4⟩ :: rest)
    (hnew : newValue s ((if clockwise then 1 else -1) * dsign s.rev) = .ok new) :
    ∃ t, step s = .next t ∧ EdgeStored s t new ∧
      EdgeKeeps (s.accept (EdgeInput.command ⟨true, true, o4⟩) rest) t ∧ t.fsmState = stSTART := by
  have hstep : s.edgeStep true true = (if clockwise then 1 else -1) * dsign s.rev := by
    rw [edgeStep_eq, hpath, detentCodes_emits]
    cases clockwise <;> simp
  have h0 : s.edgeStep true true ≠ 0 := by
    rw [hstep]
    exact detent_step_ne_zero clockwise s.rev
  rw [← hstep] at hnew
  obtain ⟨t, ht, hstored, hk, hfsm⟩ := step_stored_edge hidle hcmd h0 hnew
  rw [hpath] at hfsm
  exact ⟨t, ht, hstored, hk, hfsm.trans (detentCodes_back clockwise)⟩

/-- Settles O22: three EDGEs that emit nothing, and a fourth that stores a result. -/
theorem detentMovesValueOnFourthEdge : Obligations.DetentMovesValueOnFourthEdge := by
  intro clockwise s o1 o2 o3 o4 rest new hidle hstart hcmd hnew
  have hinputs : s.cmdIn = (detentInputs clockwise o1 o2 o3).map EdgeInput.command ++
      EdgeInput.command ⟨true, true, o4⟩ :: rest := by
    cases clockwise <;> simp [hcmd, detentInputs, EdgeInput.command, encode_edge_words]
  obtain ⟨b, hrun⟩ := run_detentInputs hidle hstart hinputs
  obtain ⟨t, ht, hstored, hk, hback⟩ := step_detent_end
    (s := s.movedSilently (detentCodes clockwise) b (EdgeInput.command ⟨true, true, o4⟩ :: rest))
    hidle (congrArg (fsmAfter · (detentCodes clockwise)) hstart) rfl hnew
  have hresp : (detentCodes clockwise).length = 3 := by
    cases clockwise <;> rfl
  refine ⟨_, t, hrun, ht, rfl, hidle, rfl, rfl, ?_, hstored, hback, hk.cmdIn, hk.lt, hk.minVal, hk.maxVal,
    hk.rev, hk.rangeMode⟩
  simp only [State.movedSilently, hresp]

end Sys2Proof.Machine
end

section
/-! R165 to R170: a dispatch in small steps, and the one big step it comes to. -/

namespace Sys2Proof.Machine

/-! ### The records of the big step -/

/-- The answers not yet taken begin with that of the listener being invoked. -/
theorem drop_walkAnswers {ans : Nat → Answer} {m k : Nat} (hk : k < m) :
    (walkAnswers ans m).drop k = ans k :: (walkAnswers ans m).drop (k + 1) := by
  have hlen : k < (walkAnswers ans m).length := by simpa [walkAnswers] using hk
  rw [List.drop_eq_getElem_cons hlen]
  simp [walkAnswers]

theorem drop_walkAnswers_all (ans : Nat → Answer) (m : Nat) : (walkAnswers ans m).drop m = [] := by
  simp [walkAnswers]

/-- One more invocation is recorded at the end. -/
theorem walkEvents_succ {lt : List ListenerId} {ans : Nat → Answer} {k : Nat} {h : ListenerId}
    (hlt : lt[k]? = some h) : walkEvents lt ans (k + 1) = walkEvents lt ans k ++ [⟨h, ans k⟩] := by
  obtain ⟨hk, -⟩ := List.getElem?_eq_some_iff.mp hlt
  simp [walkEvents, List.take_add_one, hlt, List.zipIdx_append, hk.le]

theorem answer_ne_fault_iff {a : Answer} : a ≠ .fault ↔ a = .done := by
  cases a <;> decide

/-- The first fault is a fault, and all before it answer `done` (R170). -/
theorem firstFault_eq_some_iff {n k : Nat} {ans : Nat → Answer} :
    firstFault n ans = some k ↔ ans k = .fault ∧ k < n ∧ ∀ i < k, ans i = .done := by
  simp [firstFault, List.find?_range_eq_some, ← answer_ne_fault_iff]

theorem firstFault_eq_none_iff {n : Nat} {ans : Nat → Answer} :
    firstFault n ans = none ↔ ∀ i < n, ans i = .done := by
  simp [firstFault, ← answer_ne_fault_iff]

/-! ### The walk -/

/-- The dispatch that `b` begins, at the listener `k`: `k` of the `m` answers are taken, `k` invocations are
recorded (R165). -/
def walkAt (b : State) (ans : Nat → Answer) (later : List Answer) (m k : Nat) : State :=
  { b with
    busy := true, dispIdx := k, answers := (walkAnswers ans m).drop k ++ later,
    notifyOut := b.notifyOut ++ walkEvents b.lt ans k }

section
variable {b : State} {ans : Nat → Answer} {later : List Answer} {m k : Nat}

theorem startNotify_eq_walkAt (hans : b.answers = walkAnswers ans m ++ later) :
    startNotify b = continueWalk (walkAt b ans later m 0) := by
  simp [startNotify, walkAt, State.dispatchAt, walkEvents, ← hans]

/-- A listener that answers `done` moves the walk on by one (R166). -/
theorem step_walkAt_done (hlt : k < b.lcount) (hm : k < m) (hdone : ans k = .done) :
    step (walkAt b ans later m k) = .next (continueWalk (walkAt b ans later m (k + 1))) := by
  have hsome : b.lt[k]? = some b.lt[k] := List.getElem?_eq_getElem hlt
  have hans : (walkAt b ans later m k).answers = .done :: ((walkAnswers ans m).drop (k + 1) ++ later) := by
    simp [walkAt, drop_walkAnswers hm, hdone]
  rw [step_of_busy rfl, dispatchStep_done hsome hans]
  simp [walkAt, State.recordInvocation, State.dispatchAt, walkEvents_succ hsome, hdone]

/-- A listener that answers `fault` ends the walk (R167). -/
theorem step_walkAt_fault (hlt : k < b.lcount) (hm : m = k + 1) (hfault : ans k = .fault) :
    step (walkAt b ans later m k) =
      .next (State.raise { b with
        busy := false, dispIdx := k, answers := later,
        notifyOut := b.notifyOut ++ walkEvents b.lt ans m } (.listenerFault k)) := by
  subst hm
  have hsome : b.lt[k]? = some b.lt[k] := List.getElem?_eq_getElem hlt
  have hans : (walkAt b ans later (k + 1) k).answers = .fault :: later := by
    simp [walkAt, drop_walkAnswers k.lt_succ_self, hfault, drop_walkAnswers_all]
  rw [step_of_busy rfl, dispatchStep_fault hsome hans]
  simp [walkAt, State.recordInvocation, State.release, walkEvents_succ hsome, hfault]

/-- `k` listeners that answer `done` are `k` steps of the walk. -/
theorem run_walkAt_done (hlt : k ≤ b.lcount) (hm : k ≤ m) (hdone : ∀ i < k, ans i = .done) (n : Nat) :
    core.run (k + n) (continueWalk (walkAt b ans later m 0)) =
      core.run n (continueWalk (walkAt b ans later m k)) := by
  induction k generalizing n with
  | zero => rw [Nat.zero_add]
  | succ k ih =>
    have hbefore : ∀ i < k, ans i = .done := fun i hi => hdone i (Nat.lt_succ_of_lt hi)
    have hstep := step_walkAt_done (later := later) hlt hm (hdone k k.lt_succ_self)
    rw [Nat.succ_add_eq_add_succ, ih (Nat.le_of_succ_le hlt) (Nat.le_of_succ_le hm) hbefore,
      continueWalk_within (s := walkAt b ans later m k) hlt, run_succ_of_step hstep]

end

theorem walkLength_of_none {n : Nat} {ans : Nat → Answer} (h : firstFault n ans = none) :
    walkLength n ans = n := by
  simp only [walkLength, h]

theorem walkLength_of_some {n k : Nat} {ans : Nat → Answer} (h : firstFault n ans = some k) :
    walkLength n ans = k + 1 := by
  simp only [walkLength, h]

/-- The big step of listeners that all answer `done` (R170). -/
theorem bigStepNotify_of_none {b : State} {ans : Nat → Answer} (later : List Answer)
    (h : firstFault b.lcount ans = none) :
    bigStepNotify ans later b = State.respond { b with
      busy := false, dispIdx := b.lcount, answers := later,
      notifyOut := b.notifyOut ++ walkEvents b.lt ans b.lcount } .ok true 0 := by
  simp only [bigStepNotify, h, walkLength_of_none h]

/-- The big step of listeners of which the one at `k` is the first to fault (R170). -/
theorem bigStepNotify_of_some {b : State} {ans : Nat → Answer} (later : List Answer) {k : Nat}
    (h : firstFault b.lcount ans = some k) :
    bigStepNotify ans later b = State.raise { b with
      busy := false, dispIdx := k, answers := later,
      notifyOut := b.notifyOut ++ walkEvents b.lt ans (k + 1) } (.listenerFault k) := by
  simp only [bigStepNotify, h, walkLength_of_some h]

/-- After the last listener the `while` test ends the walk (R165). -/
theorem continueWalk_walkAt_end (b : State) (ans : Nat → Answer) (later : List Answer) :
    continueWalk (walkAt b ans later b.lcount b.lcount) = State.respond { b with
      busy := false, dispIdx := b.lcount, answers := later,
      notifyOut := b.notifyOut ++ walkEvents b.lt ans b.lcount } .ok true 0 := by
  rw [continueWalk_ended (s := walkAt b ans later b.lcount b.lcount) b.lcount.le_refl]
  simp [walkAt, State.release, drop_walkAnswers_all]

/-- The whole dispatch: the listeners before the first fault, and then the fault or the end (R170). -/
theorem run_startNotify {b : State} {ans : Nat → Answer} {later : List Answer}
    (hans : b.answers = walkAnswers ans (walkLength b.lcount ans) ++ later) :
    core.run (walkLength b.lcount ans) (startNotify b) = .next (bigStepNotify ans later b) := by
  rw [startNotify_eq_walkAt hans]
  cases hfirst : firstFault b.lcount ans with
  | none =>
    have hdone := firstFault_eq_none_iff.mp hfirst
    rw [walkLength_of_none hfirst, bigStepNotify_of_none later hfirst, ← continueWalk_walkAt_end]
    exact run_walkAt_done b.lcount.le_refl b.lcount.le_refl hdone 0
  | some k =>
    obtain ⟨hfault, hk, hdone⟩ := firstFault_eq_some_iff.mp hfirst
    rw [walkLength_of_some hfirst, bigStepNotify_of_some later hfirst,
      run_walkAt_done hk.le k.le_succ hdone 1, continueWalk_within (s := walkAt b ans later (k + 1) k) hk,
      run_succ_of_step (step_walkAt_fault hk rfl hfault)]
    rfl

/-- An EDGE that changes `value` commits, and begins its dispatch (R100). -/
theorem step_edge_startNotify {s : State} {c : Command} {rest : List Command} {clk dt : Bool} {new : Int}
    (hidle : s.busy = false) (hcmd : s.cmdIn = c :: rest) (hdec : decode c.hdr = .ok (.edge clk dt))
    (h0 : s.edgeStep clk dt ≠ 0) (hnew : newValue s (s.edgeStep clk dt) = .ok new) (hchange : new ≠ s.value) :
    step s = .next (startNotify { s with
      cmdIn := rest, bus := c.ops, fsmState := fsmNext s.fsmState (codeOf clk dt), value := new }) :=
  calc step s
      = exec (.edge clk dt) (s.accept c rest) := step_of_decode_ok hidle hcmd hdec
    _ = .next (storeAndNotify ((s.accept c rest).commitFsm (s.edgeNext clk dt)) new) :=
      resolveStep_ok (s := (s.accept c rest).commitFsm (s.edgeNext clk dt)) h0 hnew
    _ = .next (startNotify (((s.accept c rest).commitFsm (s.edgeNext clk dt)).storeValue new)) :=
      congrArg Host.Outcome.next (storeAndNotify_changed hchange)

/-- Settles O56: the EDGE commits and begins the dispatch, which comes to the big step. -/
theorem edgeAndDispatchAreOneBigStep : Obligations.EdgeAndDispatchAreOneBigStep := by
  intro s c rest clk dt new ans later hidle hcmd hdec h0 hnew hchange hans
  rw [Nat.add_comm, run_succ_of_step (step_edge_startNotify hidle hcmd hdec h0 hnew hchange)]
  exact run_startNotify (b := { s with
    cmdIn := rest, bus := c.ops, fsmState := fsmNext s.fsmState (codeOf clk dt), value := new }) hans

end Sys2Proof.Machine
end
